-- ==== Sys2Proof/Word.lean ====
section
/-!
DEFINITION. The data units of R7 (00_scope.md) and the plainest arithmetic on them.
-/
namespace Sys2Proof

/-- A byte, the smallest addressable unit (R7). -/
abbrev Byte := BitVec 8
/-- A word of 32 bits (R7); vector registers are strings of these (R32). -/
abbrev W32 := BitVec 32
/-- A dword: a scalar register, an instruction word, an address (R7, R32). -/
abbrev W64 := BitVec 64
/-- A mask register: one bit an element (R32). -/
abbrev Mask := BitVec 2048

/-- The greatest value of an unsigned field of `w` bits. -/
abbrev maxOf (w : Nat) : Nat := 2 ^ w - 1

/-- `n` rounded up to a multiple of `m`, as the manual's `roundup`. -/
abbrev roundUp (n m : Nat) : Nat := (n + m - 1) / m * m

/-- `n` divided by `m`, rounded up. -/
abbrev ceilDiv (n m : Nat) : Nat := (n + m - 1) / m

end Sys2Proof
end

