-- ==== Sys2Proof/Machine/Bits.lean ====
section
/-!
DEFINITION. Bit fields, sign extension and byte order helpers shared by the meanings (R8, R9, R12).
Numbers are natural numbers or integers until a helper narrows them (R12).
-/
namespace Sys2Proof.Machine

/-- Bits [lo+n-1 : lo] of a natural number (R8). -/
def bitsOf (x lo n : Nat) : Nat := x / 2 ^ lo % 2 ^ n

/-- Bit `i` of a natural number (R8). -/
def bitOf (x i : Nat) : Bool := x / 2 ^ i % 2 = 1

/-- `x` with bits [lo+n-1 : lo] replaced by the low bits of `v`. -/
def setBitsOf (x lo n v : Nat) : Nat :=
  x / 2 ^ (lo + n) * 2 ^ (lo + n) + v % 2 ^ n * 2 ^ lo + x % 2 ^ lo

/-- A Boolean as a bit. -/
def bit (b : Bool) : Nat := if b then 1 else 0

/-- The low `w` bits of `x` as a signed integer. -/
def toSigned (w x : Nat) : Int :=
  if x % 2 ^ w < 2 ^ (w - 1) then (x % 2 ^ w : Nat) else ((x % 2 ^ w : Nat) : Int) - 2 ^ w

/-- An integer modulo 2^w, as a bit pattern. -/
def ofInt (w : Nat) (x : Int) : Nat := (x % (2 ^ w : Int)).toNat

/-- `x` clamped to the signed integers of `w` bits. -/
def clampS (w : Nat) (x : Int) : Int := max (-(2 ^ (w - 1))) (min x (2 ^ (w - 1) - 1))

/-- `x` clamped to the unsigned integers of `w` bits. -/
def clampU (w : Nat) (x : Int) : Int := max 0 (min x (2 ^ w - 1))

/-- The address `a + sign_extend(imm)·scale` modulo 2^64. -/
def addrPlus {n : Nat} (a : W64) (imm : BitVec n) (scale : Int) : W64 :=
  a + BitVec.ofInt 64 (imm.toInt * scale)

/-- The number of leading zero bits of a `w`-bit number. -/
def leadingZeros : Nat → Nat → Nat
  | 0, _ => 0
  | w + 1, x => if bitOf x w then 0 else 1 + leadingZeros w x

/-- The number of trailing zero bits of a `w`-bit number; `w` for zero. -/
def trailingZeros : Nat → Nat → Nat
  | 0, _ => 0
  | w + 1, x => if x % 2 = 1 then 0 else 1 + trailingZeros w (x / 2)

/-- The number of set bits among the low `w`. -/
def popCount : Nat → Nat → Nat
  | 0, _ => 0
  | w + 1, x => x % 2 + popCount w (x / 2)

/-- `x` with its `n` bytes in reverse order. -/
def reverseBytes : Nat → Nat → Nat
  | 0, _ => 0
  | n + 1, x => x % 256 * 256 ^ n + reverseBytes n (x / 256)

/-- The greatest e with 2^e ≤ x, for x > 0: floor(log2 x). -/
def log2Floor (x : Nat) : Nat := Nat.log2 x

/-- The integer square root, found bit by bit from bit `i` downward. -/
def sqrtFrom (x : Nat) : Nat → Nat → Nat
  | 0, r => if (r + 1) * (r + 1) ≤ x then r + 1 else r
  | i + 1, r => sqrtFrom x i (if (r + 2 ^ (i + 1)) * (r + 2 ^ (i + 1)) ≤ x then r + 2 ^ (i + 1) else r)

/-- The bytes of a number, least significant first (R9). -/
def toBytes : Nat → Nat → List Byte
  | 0, _ => []
  | n + 1, x => BitVec.ofNat 8 x :: toBytes n (x / 256)

/-- The number that a list of bytes holds, least significant first (R9). -/
def ofBytes : List Byte → Nat
  | [] => 0
  | b :: t => b.toNat + 256 * ofBytes t

/-- A number with bit i equal to element i of the list. -/
def ofBits : List Bool → Nat
  | [] => 0
  | b :: t => bit b + 2 * ofBits t

/-- The mask whose bit e is `p e`, for e below `n`. -/
def maskOf (n : Nat) (p : Nat → Bool) : Mask :=
  BitVec.ofNat 2048 (ofBits ((List.range n).map p))

/-- A mask with bit `e` set to `b`. -/
def putBit (m : Mask) (e : Nat) (b : Bool) : Mask :=
  if b then m ||| (1#2048 <<< e) else m &&& ~~~(1#2048 <<< e)

end Sys2Proof.Machine
end

