-- ==== Sys2Proof/Syntax/Formats.lean ====
section
/-!
DEFINITION. The ten instruction word formats of R50 (02_program_image.md), as plain data.
Every bit of a word outside OP and FN is held in exactly one field, the reserved ones too, so that an
instruction of this syntax is a word and its well-formedness is a question about fields (WellFormed.lean).
-/
namespace Sys2Proof

/-- Format FS of R50: scalar. -/
structure FS where
  sd : BitVec 6
  sa : BitVec 6
  sb : BitVec 6
  imm : BitVec 20
  ext : BitVec 12
  cf : BitVec 2
  deriving DecidableEq, Repr

/-- Format FI of R50: scalar immediate and system. -/
structure FI where
  sd : BitVec 6
  sa : BitVec 6
  imm : BitVec 32
  ext : BitVec 6
  cf : BitVec 2
  deriving DecidableEq, Repr

/-- Format FB of R50: branch. -/
structure FB where
  sa : BitVec 6
  sb : BitVec 6
  cond : BitVec 4
  off : BitVec 32
  hint : BitVec 2
  cf : BitVec 2
  deriving DecidableEq, Repr

/-- Format FV of R50: vector. -/
structure FV where
  vd : BitVec 5
  va : BitVec 5
  vb : BitVec 5
  vc : BitVec 5
  mreg : BitVec 3
  xm : BitVec 1
  xmd : BitVec 3
  rm : BitVec 3
  sat : BitVec 1
  ew : BitVec 3
  imm : BitVec 16
  cf : BitVec 2
  deriving DecidableEq, Repr

/-- Format FVS of R50: vector with a scalar operand. -/
structure FVS where
  vd : BitVec 5
  va : BitVec 5
  sb : BitVec 6
  zero : BitVec 4
  mreg : BitVec 3
  xm : BitVec 1
  xmd : BitVec 3
  rm : BitVec 3
  sat : BitVec 1
  ew : BitVec 3
  imm : BitVec 16
  cf : BitVec 2
  deriving DecidableEq, Repr

/-- Format FM of R50: vector memory. -/
structure FM where
  vd : BitVec 5
  sa : BitVec 6
  sb : BitVec 6
  vi : BitVec 5
  mreg : BitVec 3
  ord : BitVec 2
  scope : BitVec 3
  am : BitVec 2
  fof : BitVec 1
  na : BitVec 1
  ew : BitVec 3
  imm : BitVec 13
  cf : BitVec 2
  deriving DecidableEq, Repr

/-- Format FX of R50: matrix. -/
structure FX where
  acc : BitVec 2
  sa : BitVec 6
  sb : BitVec 6
  sc : BitVec 6
  mreg : BitVec 3
  shape : BitVec 5
  afmt : BitVec 4
  bfmt : BitVec 4
  spar : BitVec 2
  ext : BitVec 12
  cf : BitVec 2
  deriving DecidableEq, Repr

/-- Format FF of R50: collective form. -/
structure FF where
  lbid : BitVec 12
  sa : BitVec 6
  sb : BitVec 6
  sc : BitVec 6
  vd : BitVec 5
  attr : BitVec 4
  nest : BitVec 1
  ext : BitVec 10
  cf : BitVec 2
  deriving DecidableEq, Repr

/-- Format FC of R50: copy, collective and launch. -/
structure FC where
  sa : BitVec 6
  sb : BitVec 6
  sc : BitVec 6
  sd : BitVec 6
  tcid : BitVec 12
  q : BitVec 4
  ord : BitVec 2
  scope : BitVec 3
  ext : BitVec 5
  cf : BitVec 2
  deriving DecidableEq, Repr

/-- Format FO of R50: operand-free. -/
structure FO where
  zero : BitVec 50
  cf : BitVec 2
  deriving DecidableEq, Repr

end Sys2Proof
end

