-- ==== Sys2Proof/Syntax/Messages.lean ====
section
/-!
DEFINITION. What crosses the edge of the package, as plain data: the packets of R357, the lease messages of R371,
checkpoint data (R375), the transfers and messages of a collective (R407, R408) and the host's answers (R303).
A field that the manual packs into bits is one field here; `reserved` says that some bit that must be zero is one.
-/
namespace Sys2Proof

/-- A request packet, a response or an acknowledgement (R357). -/
structure Packet where
  /-- 0x01 load, 0x02 store, 0x03 atomic, 0x04 cas, 0x10 response, 0x11 acknowledgement -/
  kind : Nat
  vc : Nat := 0
  ordf : Bool := false
  ret : Bool := false
  am : Nat := 0
  fn : Nat := 0
  /-- element size in bits, by the EW code of OPS -/
  esize : Nat
  u : Bool := false
  src : Nat
  dst : Nat
  /-- FTAG: a fabric tag, or the lease number of a T3 access -/
  ftag : Nat
  /-- the request is a T3 access: FTAG holds a lease number (log entry 17) -/
  leased : Bool := false
  gtag : Nat := 0xFFFF
  seq : Nat := 0
  addr : W64
  stride : W64 := 0
  /-- MASK: the accessed elements, or in an answer the failed ones, in rising order -/
  mask : List Nat
  /-- the index words of the accessed elements (indexed modes) -/
  index : List W32 := []
  /-- the data of the elements: stored values, operands, expected values, or returned values -/
  data : List Nat := []
  /-- the new values of a `cas` -/
  data2 : List Nat := []
  /-- in an answer, why its first failed element failed (R360) -/
  reason : Nat := 0
  reserved : Bool := false
  deriving DecidableEq, Repr

/-- A lease message (R371): who sends it, and the lease it names with the terms a GRANT states. -/
structure LeaseMsg where
  src : Nat
  lease : Nat
  backed : Bool := false
  gran : Nat := 0
  notice : Nat := 0
  deriving DecidableEq, Repr

/-- Checkpoint data (R375, R376): its source, the physical address at the target, how many bytes it covers, and the bytes
that are not zero, by offset. -/
structure CkptData where
  src : Nat
  dst : Nat := 0
  addr : Nat
  len : Nat
  bytes : List (Nat × Byte)
  deriving DecidableEq, Repr

/-- A signature (R404). -/
structure Signature where
  crc : Nat
  opc : Nat
  typ : Nat
  len : Nat
  deriving DecidableEq, Repr

/-- A transfer of a collective, a packet of KIND 0x40 (R407). -/
structure Transfer where
  src : Nat
  dst : Nat
  ftag : Nat := 0
  seq : Nat := 0
  addr : W64
  collid : Nat
  srank : Nat
  drank : Nat
  ddie : Nat
  inst : W64
  /-- RSET: the ranks combined, first and count -/
  first : Nat
  count : Nat
  nmem : Nat
  sig : Signature
  /-- sent again: it bypasses switch combining (R411) -/
  resent : Bool := false
  data : List Byte
  reserved : Bool := false
  deriving DecidableEq, Repr

/-- A coordination message, a packet of KIND 0x41 (R408). The event that brings it says which MSG it is. -/
structure CollMsg where
  src : Nat
  dst : Nat
  ftag : Nat := 0
  seq : Nat := 0
  cause : Nat := 0
  reason : Nat := 0
  collid : Nat
  srank : Nat
  drank : Nat
  ddie : Nat
  inst : W64
  nmem : Nat
  sig : Option Signature := none
  reserved : Bool := false
  deriving DecidableEq, Repr

/-- The host's answer to an ATS or a PRI request for a 64 KiB page (R303). -/
structure HostAnswer where
  part : Nat
  va : W64
  granted : Bool
  /-- bus address of the page and its rights, when granted -/
  frame : Nat := 0
  rd : Bool := false
  wr : Bool := false
  ex : Bool := false
  deriving DecidableEq, Repr

/-- What the device puts on its links. -/
inductive Sent where
  | packet (p : Packet)
  | lease (kind dst : Nat) (m : LeaseMsg)
  | checkpoint (d : CkptData)
  | transfer (t : Transfer)
  | message (msg : Nat) (m : CollMsg)
  deriving DecidableEq, Repr

end Sys2Proof
end

