-- ==== Sys2Proof/Syntax.lean ====
section
/-!
DEFINITION. The ONE syntax of hs-b700fb2d8250: one constructor per row of the opcode table.
The first 276 are the instruction words of R65 (03_opcode_map.md), each with the fields of its format (R50).
The last 106 are the events of the table: a step of an engine, of the front end, of the host or of a peer, whose
arguments are what the outside (or the schedule) chooses. Events have no encoding.
The words of the control side that never enter a vector queue stand after the others: compiled Lean can build a
constructor with fields only among the first 244, so that the functions that build the later ones (the decoder and
the step) are marked noncomputable; the kernel evaluates them all the same.
-/
namespace Sys2Proof

/-- One operation or event of the table. -/
inductive Instr where
  /-- ADD (R155). Adds two scalar registers modulo 2^64. -/
  | add (f : FS)
  /-- SUB (R155). Subtracts one scalar register from another modulo 2^64. -/
  | sub (f : FS)
  /-- MUL (R155). Writes the low 64 bits of the product of two scalar registers. -/
  | mul (f : FS)
  /-- MULH (R155). Writes the high 64 bits of the signed 128-bit product. -/
  | mulh (f : FS)
  /-- DIV (R155). Signed division truncated toward zero, with fixed results for a zero divisor and for overflow. -/
  | div (f : FS)
  /-- DIVU (R155). Unsigned division; a zero divisor gives all ones. -/
  | divu (f : FS)
  /-- REM (R155). Signed remainder, with fixed results for a zero divisor and for overflow. -/
  | rem (f : FS)
  /-- REMU (R155). Unsigned remainder; a zero divisor gives x. -/
  | remu (f : FS)
  /-- AND (R155). Bitwise AND of two scalar registers. -/
  | and (f : FS)
  /-- OR (R155). Bitwise OR of two scalar registers. -/
  | or (f : FS)
  /-- XOR (R155). Bitwise XOR of two scalar registers. -/
  | xor (f : FS)
  /-- SLL (R155). Shifts a scalar register left by y[5:0]. -/
  | sll (f : FS)
  /-- SRL (R155). Shifts a scalar register right with zero fill. -/
  | srl (f : FS)
  /-- SRA (R155). Shifts a scalar register right with sign fill. -/
  | sra (f : FS)
  /-- SLT (R155). Writes 1 if x < y signed, else 0. -/
  | slt (f : FS)
  /-- SLTU (R155). Writes 1 if x < y unsigned, else 0. -/
  | sltu (f : FS)
  /-- ADD_IMM (R155). Adds a sign-extended 20-bit immediate to a scalar register. -/
  | addImm (f : FS)
  /-- AND_IMM (R155). Bitwise AND with a sign-extended immediate. -/
  | andImm (f : FS)
  /-- OR_IMM (R155). Bitwise OR with a sign-extended immediate. -/
  | orImm (f : FS)
  /-- XOR_IMM (R155). Bitwise XOR with a sign-extended immediate. -/
  | xorImm (f : FS)
  /-- SLL_IMM (R155). Shifts left by an immediate count of 0-63. -/
  | sllImm (f : FS)
  /-- SRL_IMM (R155). Shifts right with zero fill by an immediate count. -/
  | srlImm (f : FS)
  /-- SRA_IMM (R155). Shifts right with sign fill by an immediate count. -/
  | sraImm (f : FS)
  /-- SLT_IMM (R155). Signed comparison against an immediate. -/
  | sltImm (f : FS)
  /-- LI (R156). Loads a sign-extended 32-bit immediate. -/
  | li (f : FI)
  /-- LHI (R156). Places an immediate in the upper 32 bits above the low half of s[sa]. -/
  | lhi (f : FI)
  /-- CLZ (R156). Counts leading zero bits. -/
  | clz (f : FS)
  /-- CTZ (R156). Counts trailing zero bits. -/
  | ctz (f : FS)
  /-- POPC (R156). Counts set bits. -/
  | popc (f : FS)
  /-- BSWAP (R156). Reverses the eight bytes of a register. -/
  | bswap (f : FS)
  /-- LEA (R156). Computes x + y·2^sh + offset. -/
  | lea (f : FS)
  /-- LEA_IMM (R156). Computes x + offset·2^sh. -/
  | leaImm (f : FS)
  /-- PCADDR (R156). Computes the clause header address plus 8 times the immediate. -/
  | pcaddr (f : FI)
  /-- FADD (R159). Scalar floating-point add. -/
  | fadd (f : FS)
  /-- FSUB (R159). Scalar floating-point subtract. -/
  | fsub (f : FS)
  /-- FMUL (R159). Scalar floating-point multiply. -/
  | fmul (f : FS)
  /-- FDIV (R159). Scalar floating-point divide. -/
  | fdiv (f : FS)
  /-- FFMA (R159). Scalar fused multiply-add into s[sd], rounded once. -/
  | ffma (f : FS)
  /-- FSQRT (R159). Scalar floating-point square root. -/
  | fsqrt (f : FS)
  /-- FMIN (R159). Scalar minimumNumber. -/
  | fmin (f : FS)
  /-- FMAX (R159). Scalar maximumNumber. -/
  | fmax (f : FS)
  /-- FEQ (R159). Scalar floating-point equality compare. -/
  | feq (f : FS)
  /-- FLT (R159). Scalar floating-point less-than compare. -/
  | flt (f : FS)
  /-- FLE (R159). Scalar floating-point less-or-equal compare. -/
  | fle (f : FS)
  /-- FCVTI (R159). Converts a float to i64 in the rounding mode, saturating. -/
  | fcvti (f : FS)
  /-- FICVT (R159). Converts i64 to a float type. -/
  | ficvt (f : FS)
  /-- FNARROW (R159). Narrows f32 to a smaller float type as vncvt does. -/
  | fnarrow (f : FS)
  /-- FWIDEN (R159). Widens a small float type to f32 exactly. -/
  | fwiden (f : FS)
  /-- VBCAST (R205). Writes a scalar into every active element of a vector. -/
  | vbcast (f : FVS)
  /-- VINS (R205). Writes a scalar into one element of a vector. -/
  | vins (f : FVS)
  /-- MPUT (R205). Writes 64 bits of a mask register from a scalar. -/
  | mput (f : FVS)
  /-- VGET (R204). Reads one vector element into a scalar register. -/
  | vget (f : FI)
  /-- MGET (R204). Reads 64 bits of a mask register into a scalar. -/
  | mget (f : FI)
  /-- LD_I8 (R162). Loads a sign-extended byte. -/
  | ldI8 (f : FS)
  /-- LD_I16 (R162). Loads a sign-extended half. -/
  | ldI16 (f : FS)
  /-- LD_I32 (R162). Loads a sign-extended word. -/
  | ldI32 (f : FS)
  /-- LD_I64 (R162). Loads a dword. -/
  | ldI64 (f : FS)
  /-- LD_N8 (R162). Loads a zero-extended byte. -/
  | ldN8 (f : FS)
  /-- LD_N16 (R162). Loads a zero-extended half. -/
  | ldN16 (f : FS)
  /-- LD_N32 (R162). Loads a zero-extended word. -/
  | ldN32 (f : FS)
  /-- ST_N8 (R162). Stores a byte through the store buffer. -/
  | stN8 (f : FS)
  /-- ST_N16 (R162). Stores a half through the store buffer. -/
  | stN16 (f : FS)
  /-- ST_N32 (R162). Stores a word through the store buffer. -/
  | stN32 (f : FS)
  /-- ST_N64 (R162). Stores a dword through the store buffer. -/
  | stN64 (f : FS)
  /-- LDS (R162). Loads a zero-extended value from the group's scratchpad. -/
  | lds (f : FS)
  /-- STS (R162). Stores a value to the group's scratchpad. -/
  | sts (f : FS)
  /-- AADD (R163). Atomic add at system scope, returning the old value. -/
  | aadd (f : FS)
  /-- AAND (R163). Atomic AND, returning the old value. -/
  | aand (f : FS)
  /-- AOR (R163). Atomic OR, returning the old value. -/
  | aor (f : FS)
  /-- AXOR (R163). Atomic XOR, returning the old value. -/
  | axor (f : FS)
  /-- AMIN (R163). Atomic signed minimum, returning the old value. -/
  | amin (f : FS)
  /-- AMAX (R163). Atomic signed maximum, returning the old value. -/
  | amax (f : FS)
  /-- ASWAP (R163). Atomic swap, returning the old value. -/
  | aswap (f : FS)
  /-- CAS (R163). Atomic compare-and-swap, returning the old value. -/
  | cas (f : FS)
  /-- CFLUSH (R164). Writes back and invalidates every copy of a line. -/
  | cflush (f : FS)
  /-- CWB (R164). Writes back every modified copy of a line and keeps the copies valid. -/
  | cwb (f : FS)
  /-- ICINV (R164). Invalidates the core's L1 instruction cache. -/
  | icinv (f : FS)
  /-- PREFETCH (R164). Requests a line into this core's L1 without faulting. -/
  | prefetch (f : FS)
  /-- VADD (R206). Element-wise vector add. -/
  | vadd (f : FV)
  /-- VSUB (R206). Element-wise vector subtract. -/
  | vsub (f : FV)
  /-- VMUL (R206). Element-wise vector multiply. -/
  | vmul (f : FV)
  /-- VMIN (R206). Element-wise minimum. -/
  | vmin (f : FV)
  /-- VMAX (R206). Element-wise maximum. -/
  | vmax (f : FV)
  /-- VAND (R206). Element-wise bitwise AND. -/
  | vand (f : FV)
  /-- VOR (R206). Element-wise bitwise OR. -/
  | vor (f : FV)
  /-- VXOR (R206). Element-wise bitwise XOR. -/
  | vxor (f : FV)
  /-- VNOT (R206). Element-wise bitwise complement. -/
  | vnot (f : FV)
  /-- VSLL (R206). Element-wise shift left. -/
  | vsll (f : FV)
  /-- VSRL (R206). Element-wise logical shift right. -/
  | vsrl (f : FV)
  /-- VSRA (R206). Element-wise arithmetic shift right. -/
  | vsra (f : FV)
  /-- VADD_VS (R206). Vector-scalar add. -/
  | vaddVs (f : FVS)
  /-- VSUB_VS (R206). Vector-scalar subtract. -/
  | vsubVs (f : FVS)
  /-- VMUL_VS (R206). Vector-scalar multiply. -/
  | vmulVs (f : FVS)
  /-- VMIN_VS (R206). Vector-scalar minimum. -/
  | vminVs (f : FVS)
  /-- VMAX_VS (R206). Vector-scalar maximum. -/
  | vmaxVs (f : FVS)
  /-- VAND_VS (R206). Vector-scalar AND. -/
  | vandVs (f : FVS)
  /-- VOR_VS (R206). Vector-scalar OR. -/
  | vorVs (f : FVS)
  /-- VXOR_VS (R206). Vector-scalar XOR. -/
  | vxorVs (f : FVS)
  /-- VSLL_VS (R206). Vector-scalar shift left. -/
  | vsllVs (f : FVS)
  /-- VSRL_VS (R206). Vector-scalar logical shift right. -/
  | vsrlVs (f : FVS)
  /-- VSRA_VS (R206). Vector-scalar arithmetic shift right. -/
  | vsraVs (f : FVS)
  /-- VDIV (R206). Element-wise divide. -/
  | vdiv (f : FV)
  /-- VSQRT (R206). Element-wise floating-point square root. -/
  | vsqrt (f : FV)
  /-- VABS (R206). Element-wise absolute value. -/
  | vabs (f : FV)
  /-- VNEG (R206). Element-wise negation. -/
  | vneg (f : FV)
  /-- VFFMA (R206). Fused a·b + c per element. -/
  | vffma (f : FV)
  /-- VFFMS (R206). Fused a·b − c per element. -/
  | vffms (f : FV)
  /-- VFFNMA (R206). Fused −(a·b) − c per element. -/
  | vffnma (f : FV)
  /-- VFFNMS (R206). Fused −(a·b) + c per element. -/
  | vffnms (f : FV)
  /-- VMULH (R206). High half of the element product. -/
  | vmulh (f : FV)
  /-- VABD (R206). Absolute difference per element. -/
  | vabd (f : FV)
  /-- VWADD (R206). Widening add. -/
  | vwadd (f : FV)
  /-- VWMUL (R206). Widening multiply. -/
  | vwmul (f : FV)
  /-- VFEXP2 (R207). Approximate 2^a per element. -/
  | vfexp2 (f : FV)
  /-- VFLOG2 (R207). Approximate log2 a per element. -/
  | vflog2 (f : FV)
  /-- VFRCP (R207). Approximate reciprocal per element. -/
  | vfrcp (f : FV)
  /-- VFRSQ (R207). Approximate reciprocal square root per element. -/
  | vfrsq (f : FV)
  /-- VFTANH (R207). Approximate tanh per element. -/
  | vftanh (f : FV)
  /-- VDOT4 (R209). Integer dot product of groups of four 8-bit elements. -/
  | vdot4 (f : FV)
  /-- VFDOT2 (R209). Float dot product of pairs of 16-bit elements. -/
  | vfdot2 (f : FV)
  /-- VFDOT4 (R209). Float dot product of groups of four 8-bit floats. -/
  | vfdot4 (f : FV)
  /-- VID (R210). Writes each element's index. -/
  | vid (f : FV)
  /-- VIOTA (R210). Writes the prefix count of set mask bits. -/
  | viota (f : FV)
  /-- VMERGE (R210). Selects per element between two vectors by a mask. -/
  | vmerge (f : FV)
  /-- VMV (R210). Copies active elements. -/
  | vmv (f : FV)
  /-- VADD_IMM (R206). Adds a 12-bit immediate to each element. -/
  | vaddImm (f : FV)
  /-- VAND_IMM (R206). ANDs each element with an immediate. -/
  | vandImm (f : FV)
  /-- VSLL_IMM (R206). Shifts each element left by an immediate. -/
  | vsllImm (f : FV)
  /-- VSRL_IMM (R206). Shifts each element right logically by an immediate. -/
  | vsrlImm (f : FV)
  /-- VSRA_IMM (R206). Shifts each element right arithmetically by an immediate. -/
  | vsraImm (f : FV)
  /-- VCLZ (R206). Counts leading zeros per element. -/
  | vclz (f : FV)
  /-- VCTZ (R206). Counts trailing zeros per element. -/
  | vctz (f : FV)
  /-- VPOPC (R206). Counts set bits per element. -/
  | vpopc (f : FV)
  /-- VFSGNJ (R206). Replaces each element's sign with that of b. -/
  | vfsgnj (f : FV)
  /-- VFROUND (R206). Rounds each element to an integral value. -/
  | vfround (f : FV)
  /-- VCVT (R190). Converts elements between types of equal width. -/
  | vcvt (f : FV)
  /-- VWCVT (R190). Converts elements to a wider type. -/
  | vwcvt (f : FV)
  /-- VNCVT (R190). Converts elements to a narrower type. -/
  | vncvt (f : FV)
  /-- VQSCALE (R186). Computes e8m0 block scales for quantised data. -/
  | vqscale (f : FV)
  /-- VQAPPLY (R187). Quantises wide elements under their block scales. -/
  | vqapply (f : FV)
  /-- VDQAPPLY (R188). Dequantises elements under their block scales. -/
  | vdqapply (f : FV)
  /-- VCMPEQ (R212). Equality compare into a mask. -/
  | vcmpeq (f : FV)
  /-- VCMPNE (R212). Inequality compare into a mask. -/
  | vcmpne (f : FV)
  /-- VCMPLT (R212). Less-than compare into a mask. -/
  | vcmplt (f : FV)
  /-- VCMPLE (R212). Less-or-equal compare into a mask. -/
  | vcmple (f : FV)
  /-- VCMPUN (R212). Unordered compare into a mask. -/
  | vcmpun (f : FV)
  /-- MAND (R213). Mask AND over active bits. -/
  | mand (f : FV)
  /-- MOR (R213). Mask OR over active bits. -/
  | mor (f : FV)
  /-- MXOR (R213). Mask XOR over active bits. -/
  | mxor (f : FV)
  /-- MANDN (R213). Mask a AND NOT b over active bits. -/
  | mandn (f : FV)
  /-- MNOT (R213). Mask complement over active bits. -/
  | mnot (f : FV)
  /-- MSBF (R214). Sets mask bits before the first set bit. -/
  | msbf (f : FVS)
  /-- MSIF (R214). Sets mask bits up to and including the first set bit. -/
  | msif (f : FVS)
  /-- MSOF (R214). Sets only the first set bit. -/
  | msof (f : FVS)
  /-- MFIRST (R214). Writes the index of the first active set bit to a scalar. -/
  | mfirst (f : FVS)
  /-- MPOPC (R214). Writes the count of active set bits to a scalar. -/
  | mpopc (f : FVS)
  /-- VSETVL (R180). Sets VL, VTAIL, element format and block length. -/
  | vsetvl (f : FI)
  /-- VBPACK (R192). Packs i8 elements into bit planes. -/
  | vbpack (f : FV)
  /-- VBUNPACK (R193). Unpacks k bit planes into i8 midpoint values. -/
  | vbunpack (f : FV)
  /-- VFCLASS (R211). Classifies each float element. -/
  | vfclass (f : FV)
  /-- VPERM (R216). Permutes elements by an index vector. -/
  | vperm (f : FV)
  /-- VREV (R216). Reverses elements below VL. -/
  | vrev (f : FV)
  /-- VSLIDEUP (R216). Slides elements up by a scalar amount. -/
  | vslideup (f : FVS)
  /-- VSLIDEDN (R216). Slides elements down by a scalar amount. -/
  | vslidedn (f : FVS)
  /-- VSLIDE1UP (R216). Slides up by one, inserting a scalar at element 0. -/
  | vslide1up (f : FVS)
  /-- VSLIDE1DN (R216). Slides down by one, inserting a scalar at the top. -/
  | vslide1dn (f : FVS)
  /-- VQX (R218). Quad exchange with the horizontal neighbour. -/
  | vqx (f : FV)
  /-- VQY (R218). Quad exchange with the vertical neighbour. -/
  | vqy (f : FV)
  /-- VQD (R218). Quad exchange with the diagonal neighbour. -/
  | vqd (f : FV)
  /-- VQBC (R218). Broadcasts one element within each quad. -/
  | vqbc (f : FV)
  /-- VREDSUM (R221). Sum reduction of a vector into a scalar. -/
  | vredsum (f : FVS)
  /-- VREDMIN (R221). Minimum reduction into a scalar. -/
  | vredmin (f : FVS)
  /-- VREDMAX (R221). Maximum reduction into a scalar. -/
  | vredmax (f : FVS)
  /-- VREDAND (R221). AND reduction into a scalar. -/
  | vredand (f : FVS)
  /-- VREDOR (R221). OR reduction into a scalar. -/
  | vredor (f : FVS)
  /-- VREDXOR (R221). XOR reduction into a scalar. -/
  | vredxor (f : FVS)
  /-- VSEGSCAN_ADD (R223). Segmented inclusive add scan. -/
  | vsegscanAdd (f : FV)
  /-- VSEGSCAN_MIN (R223). Segmented inclusive minimum scan. -/
  | vsegscanMin (f : FV)
  /-- VSEGSCAN_MAX (R223). Segmented inclusive maximum scan. -/
  | vsegscanMax (f : FV)
  /-- VSEGRED_ADD (R223). Segmented add reduction to segment heads. -/
  | vsegredAdd (f : FV)
  /-- VSEGRED_MIN (R223). Segmented minimum reduction to segment heads. -/
  | vsegredMin (f : FV)
  /-- VSEGRED_MAX (R223). Segmented maximum reduction to segment heads. -/
  | vsegredMax (f : FV)
  /-- VCOMPRESS (R224). Packs selected elements to the front. -/
  | vcompress (f : FV)
  /-- VEXPAND (R224). Spreads leading elements to selected positions. -/
  | vexpand (f : FV)
  /-- VLD (R328). Vector load from global memory. -/
  | vld (f : FM)
  /-- VST (R328). Vector store to global memory. -/
  | vst (f : FM)
  /-- VLDS (R333). Vector load from the group's scratchpad. -/
  | vlds (f : FM)
  /-- VSTS (R333). Vector store to the group's scratchpad. -/
  | vsts (f : FM)
  /-- VLDP (R334). Vector load from peer scratchpads, with a fault mask. -/
  | vldp (f : FM)
  /-- VSTP (R334). Vector store to peer scratchpads, with a fault mask. -/
  | vstp (f : FM)
  /-- VAADD (R337). Vector atomic add. -/
  | vaadd (f : FM)
  /-- VAFADD (R337). Vector atomic f32 add. -/
  | vafadd (f : FM)
  /-- VAAND (R337). Vector atomic AND. -/
  | vaand (f : FM)
  /-- VAOR (R337). Vector atomic OR. -/
  | vaor (f : FM)
  /-- VAXOR (R337). Vector atomic XOR. -/
  | vaxor (f : FM)
  /-- VAMIN (R337). Vector atomic minimum. -/
  | vamin (f : FM)
  /-- VAMAX (R337). Vector atomic maximum. -/
  | vamax (f : FM)
  /-- VASWAP (R337). Vector atomic swap. -/
  | vaswap (f : FM)
  /-- VACAS (R339). Vector atomic compare-and-swap. -/
  | vacas (f : FM)
  /-- VPREFETCH (R340). Requests the lines of the elements without faulting. -/
  | vprefetch (f : FM)
  /-- VCFLUSH (R340). Flushes the line of each element. -/
  | vcflush (f : FM)
  /-- VCWB (R340). Writes back the line of each element. -/
  | vcwb (f : FM)
  /-- RLD (R356). Remote vector load from another device. -/
  | rld (f : FM)
  /-- RST (R356). Remote vector store to another device. -/
  | rst (f : FM)
  /-- RAADD (R356). Remote atomic add. -/
  | raadd (f : FM)
  /-- RAFADD (R356). Remote atomic f32 add. -/
  | rafadd (f : FM)
  /-- RAOR (R356). Remote atomic OR. -/
  | raor (f : FM)
  /-- RAMIN (R356). Remote atomic minimum. -/
  | ramin (f : FM)
  /-- RAMAX (R356). Remote atomic maximum. -/
  | ramax (f : FM)
  /-- RASWAP (R356). Remote atomic swap. -/
  | raswap (f : FM)
  /-- RCAS (R356). Remote compare-and-swap. -/
  | rcas (f : FM)
  /-- MAP (R233). Applies a lambda block to each element of a stream. -/
  | map (f : FF)
  /-- ZIP (R233). Applies a lambda block element-wise over two or three streams. -/
  | zip (f : FF)
  /-- REDUCE (R234). Folds a stream with a combiner into vd element 0. -/
  | reduce (f : FF)
  /-- SCAN (R234). Inclusive scan of a stream with a combiner. -/
  | scan (f : FF)
  /-- SCAN_X (R234). Exclusive scan of a stream with a combiner. -/
  | scanX (f : FF)
  /-- STENCIL (R235). Applies a block over a window of a stream. -/
  | stencil (f : FF)
  /-- GAPPLY (R236). Applies a block and combines each result atomically into an indexed destination. -/
  | gapply (f : FF)
  /-- MXMUL (R258). Accumulating matrix pass C += A·B. -/
  | mxmul (f : FX)
  /-- MXMUL_Z (R258). Zeroing matrix pass C = A·B. -/
  | mxmulZ (f : FX)
  /-- MXBP (R259). Accumulating pass with a bit-plane B. -/
  | mxbp (f : FX)
  /-- MXBP_Z (R259). Zeroing pass with a bit-plane B. -/
  | mxbpZ (f : FX)
  /-- MXEXT (R272). Extracts and converts an accumulator column into a vector. -/
  | mxext (f : FX)
  /-- MXMOV_IN (R274). Moves a vector into an accumulator column. -/
  | mxmovIn (f : FX)
  /-- MXMOV_OUT (R274). Moves an accumulator column into a vector. -/
  | mxmovOut (f : FX)
  /-- MXCLR (R274). Clears a whole accumulator tile. -/
  | mxclr (f : FX)
  /-- VRANK (R281). Builds a keyed rank list from a vector by value. -/
  | vrank (f : FV)
  /-- VRANK_MAG (R281). Builds a keyed rank list by magnitude. -/
  | vrankMag (f : FV)
  /-- VRKMERGE (R284). Merges two keyed rank lists, removing duplicates. -/
  | vrkmerge (f : FV)
  /-- VRKPACK (R283). Drops the keys of a keyed rank list. -/
  | vrkpack (f : FV)
  /-- RKACC (R290). Gathers weight rows by rank list into an accumulator tile. -/
  | rkacc (f : FX)
  /-- UNRANK (R292). Rebuilds a dense vector from a rank list. -/
  | unrank (f : FV)
  /-- LDATT_ATT (R286). Loads the attenuation table. -/
  | ldattAtt (f : FI)
  /-- LDATT_REC (R286). Loads the reconstruction table. -/
  | ldattRec (f : FI)
  /-- COPY (R345). Posts a copy to a copy queue. -/
  | copy (f : FC)
  /-- TCOPY (R350). Posts a triggered copy that fires on a counter threshold. -/
  | tcopy (f : FC)
  /-- COLL (R402). Posts a collective instance to the die's collective walker. -/
  | coll (f : FC)
  /-- SETSR (R436). Writes a state register. -/
  | setsr (f : FI)
  /-- NOP (R160). Has no effect. -/
  | nop (f : FO)
  /-- BR (R165). Branches, conditionally or always, relative to the clause header. -/
  | br (f : FB)
  /-- CALL (R166). Writes the link and transfers to the target clause. -/
  | call (f : FB)
  /-- JR (R167). Jumps to a register-based target. -/
  | jr (f : FS)
  /-- WAITC_LD (R152). Stalls until the LD counter is at most s[sa]. -/
  | waitcLd (f : FS)
  /-- WAITC_ST (R152). Stalls until the ST counter is at most s[sa]. -/
  | waitcSt (f : FS)
  /-- WAITC_SP (R152). Stalls until the SP counter is at most s[sa]. -/
  | waitcSp (f : FS)
  /-- WAITC_CP (R152). Stalls until the CP counter is at most s[sa]. -/
  | waitcCp (f : FS)
  /-- WAITC_MX (R152). Stalls until the MX counter is at most s[sa]. -/
  | waitcMx (f : FS)
  /-- WAITC_FB (R152). Stalls until the FB counter is at most s[sa]. -/
  | waitcFb (f : FS)
  /-- YIELD (R168). Makes the group ineligible for clause fetch for 16 cycles. -/
  | yield (f : FO)
  /-- END (R168). Stalls until all older work has drained, then retires the group. -/
  | endGroup (f : FO)
  /-- VDRAIN (R168). Stalls until every older vector-side instruction has completed. -/
  | vdrain (f : FO)
  /-- TIERQ (R341). Reports the translation, tier and migration state of an address. -/
  | tierq (f : FS)
  /-- LAUNCH (R116). Posts an LRF-128 launch record from a running group. -/
  | launch (f : FC)
  /-- CTRADD (R352). Atomically adds to a completion counter. -/
  | ctradd (f : FC)
  /-- CTRWAIT (R352). Waits until a completion counter meets a value or carries ERR. -/
  | ctrwait (f : FC)
  /-- CTRSET (R352). Writes a completion counter. -/
  | ctrset (f : FC)
  /-- PMIGRATE (R353). Starts the migration of a page to a new frame. -/
  | pmigrate (f : FC)
  /-- CKPT (R376). Starts a whole-memory checkpoint drain to peer devices. -/
  | ckpt (f : FC)
  /-- FENCE (R396). Orders the group's accesses at a scope. -/
  | fence (f : FC)
  /-- BAR (R397). Arrives at a core or cluster barrier. -/
  | bar (f : FC)
  /-- GBAR (R398). Arrives at a device-wide barrier of a concurrent launch. -/
  | gbar (f : FC)
  /-- FBAR (R248). Waits for older forms and optionally drops block copies or skips the next form. -/
  | fbar (f : FS)
  /-- MWAIT (R400). Waits on a memory dword until a comparison holds. -/
  | mwait (f : FS)
  /-- TRAP (R433). Raises cause TRAP with a code. -/
  | trap (f : FI)
  /-- ERET (R434). Returns from a trap handler. -/
  | eret (f : FO)
  /-- GETSR (R436). Reads a state register. -/
  | getsr (f : FI)
  /-- GETCAP (R30). Reads one dword of the capability space. -/
  | getcap (f : FI)
  /-- MONCFG (R450). Writes a monitor unit's configuration. -/
  | moncfg (f : FS)
  /-- MONREAD (R450). Reads a word of a monitor unit. -/
  | monread (f : FS)
  /-- LEXPORT (R369). Exports a memory region for lending. -/
  | lexport (f : FS)
  /-- LMAP (R369). Requests a lease from a lender and waits for the answer. -/
  | lmap (f : FS)
  /-- LRECLAIM (R369). Reclaims a lent lease or withdraws an export. -/
  | lreclaim (f : FS)
  /-- LACK (R369). Begins returning a borrowed lease or frees a revoked entry. -/
  | lack (f : FS)
  /-- CTXSAVE (R438). Saves a parked group or suspends a launch. -/
  | ctxsave (f : FS)
  /-- CTXLOAD (R439). Queues a saved group or resumes a suspended launch. -/
  | ctxload (f : FS)
  /-- SCRUB (R440). Starts a scrub of a core or a partition's cache lines. -/
  | scrub (f : FS)
  /-- CLAUSE_FETCH (R132). The front end selects an eligible group and fetches and checks its next clause. -/
  | clauseFetch (core : Nat)
  /-- FETCH_STARVATION (R132). A group passed over for 256 cycles is taken ahead of all others. -/
  | fetchStarvation (core : Nat)
  /-- YIELD_EXPIRE (R168). The 16-cycle ineligibility after yield ends. -/
  | yieldExpire (gtag : Nat)
  /-- VECTOR_ISSUE (R133). The vector unit takes a ready head of a group's vector queue and executes it. -/
  | vectorIssue (core : Nat)
  /-- COMMIT (R141). A vector-side instruction commits and leaves the queue, or traps at VCOMMIT. -/
  | commit (gtag : Nat)
  /-- DAYBREAK_PROBE (R306). Translates every address a vector-side instruction will touch. -/
  | daybreakProbe (gtag : Nat)
  /-- TAKE_TRAP (R418). Rolls the group back and enters the handler or parks it. -/
  | takeTrap (gtag : Nat)
  /-- SCALAR_LOAD_RETURN (R147). A scalar load's data returns and writes its pending destination. -/
  | scalarLoadReturn (gtag : Nat)
  /-- LOAD_RETURN (R150). A vector load's data arrives in its register and LD is lowered. -/
  | loadReturn (gtag : Nat)
  /-- STORE_BUFFER_PERFORM (R149). The oldest committed store-buffer entry is performed. -/
  | storeBufferPerform (gtag : Nat)
  /-- ATOMIC_PERFORM (R336). The scatter-add unit performs an atomic element at the home slice. -/
  | atomicPerform (gtag : Nat)
  /-- REDUCTION_COMPLETE (R222). A reduction writes its scalar result and lowers its flag. -/
  | reductionComplete (gtag : Nat)
  /-- FORM_CHECK (R230). A form leaving the queue validates its block, streams and feed copy. -/
  | formCheck (gtag : Nat)
  /-- ELEMENT_GROUP_PROBE (R239). Translates the addresses of a form's next element group. -/
  | elementGroupProbe (gtag : Nat)
  /-- ELEMENT_GROUP_COMMIT (R239). Commits an element group's results, flags and progress. -/
  | elementGroupCommit (gtag : Nat)
  /-- FORM_COMPLETE (R246). A form's last writes are performed and its flag is lowered. -/
  | formComplete (gtag : Nat)
  /-- RESERVATION_ENTER (R261). A matrix request enters the cluster reservation table. -/
  | reservationEnter (gtag : Nat)
  /-- TILE_FETCH (R264). The tile fetch unit pins operand sectors of leading entries. -/
  | tileFetch (cluster : Nat)
  /-- MATRIX_GRANT (R262). The arbiter grants a pass to the entry of lowest effective priority. -/
  | matrixGrant (cluster : Nat)
  /-- MATRIX_PASS_END (R251). A pass writes its rows, returns MX and lowers its flag. -/
  | matrixPassEnd (cluster : Nat)
  /-- COPY_POST_ACCEPT (R346). The copy engine reads a copy's descriptor and lowers its flag. -/
  | copyPostAccept (core : Nat)
  /-- COPY_COMPLETE (R346). A copy's last byte is performed and its counter raised. -/
  | copyComplete (core queue : Nat)
  /-- COPYFAULT (R348). A copy access faults unresolvably and the copy fails. -/
  | copyfault (core queue bytes : Nat)
  /-- TCOPY_FIRE (R350). A triggered copy finds its threshold met and joins its queue. -/
  | tcopyFire (core : Nat)
  /-- CTRWAIT_REREAD (R352). A stalled ctrwait re-reads its counter after a write. -/
  | ctrwaitReread (gtag : Nat)
  /-- MWAIT_REREAD (R400). A waiting mwait re-reads its dword after a write. -/
  | mwaitReread (gtag : Nat)
  /-- BAR_RELEASE (R397). A barrier instance completes and releases its participants. -/
  | barRelease (launch scope unit number : Nat)
  /-- GBAR_RELEASE (R398). A gbar instance completes and releases every task. -/
  | gbarRelease (launch : Nat)
  /-- WPTR_WRITE (R98). A host write to a queue's write index. -/
  | wptrWrite (queue : Nat) (value : BitVec 64)
  /-- QRESET (R100). Resets a queue, reading its descriptor. -/
  | qreset (queue : Nat)
  /-- RECORD_FETCH (R101). An active queue issues the fetch of record RPTR. -/
  | recordFetch (queue : Nat)
  /-- RECORD_ARRIVAL (R101). A fetched record arrives, RPTR increments and the record is validated. -/
  | recordArrival (queue : Nat)
  /-- WAIT_COUNTER_REREAD (R113). The device re-reads a waited-on counter after a write. -/
  | waitCounterReread (queue : Nat)
  /-- ADMISSION (R124). A launch whose waits are met is checked and admitted. -/
  | admission (die : Nat)
  /-- TASK_PLACE (R118). The walker places the next task on a core that can hold it. -/
  | taskPlace (die : Nat)
  /-- PRIORITY_PROMOTION (R127). A parallel-class group waiting 2^20 cycles places as priority 0. -/
  | priorityPromotion (launch ordinal : Nat)
  /-- GROUP_HALT (R427). A victim stops fetching, rolls back and halts at VCOMMIT. -/
  | groupHalt (gtag : Nat)
  /-- SAVE_COMPLETE (R428). A halted group's context is written to its save area and its resources freed. -/
  | saveComplete (gtag : Nat)
  /-- TASK_RETIRE (R441). A group's end completes and its task retires. -/
  | taskRetire (gtag : Nat)
  /-- SCRUB_COMPLETE (R444). A pending scrub completes and frees resources. -/
  | scrubComplete (target : Nat)
  /-- LAUNCH_RETIRE (R442). A launch's last task retires and DONE is raised with release. -/
  | launchRetire (launch : Nat)
  /-- PCORE_WRITE (R130). A write to a core's partition entry. -/
  | pcoreWrite (core : Nat) (value : BitVec 8)
  /-- TLB_INVALIDATE (R310). A GO write starts invalidation of cached translations. -/
  | tlbInvalidate (value : BitVec 64)
  /-- INVALIDATION_COMPLETE (R310). An invalidation finishes and BUSY clears. -/
  | invalidationComplete
  /-- ATS_TRANSLATION_RESPONSE (R303). The host answers an ATS translation request. -/
  | atsTranslationResponse (answer : HostAnswer)
  /-- PAGE_REQUEST_RESPONSE (R303). The host answers a PRI page request. -/
  | pageRequestResponse (answer : HostAnswer)
  /-- MIGRATION_UNIT_COPY (R316). The copy engine moves unit P to the new frame. -/
  | migrationUnitCopy (record : Nat)
  /-- MIGRATION_STALL (R316). A copy error stalls a migration. -/
  | migrationStall (record : Nat)
  /-- CONGESTION_PUBLISH (R134). Every 256 cycles a die publishes its congestion level. -/
  | congestionPublish (die occupancy : Nat)
  /-- BUCKET_REFILL (R323). Every 1,024 cycles a die refills its token buckets. -/
  | bucketRefill (die : Nat)
  /-- FLIT_SLOT_GRANT (R361). An output port grants one flit slot among the virtual-channel tiers. -/
  | flitSlotGrant (port : Nat)
  /-- RESERVE_TOKEN_REFILL (R361). A port's reserve bucket gains 75 tokens every 256 slots. -/
  | reserveTokenRefill (port : Nat)
  /-- REMOTE_REQUEST (R359). A load, store, atomic or cas request packet arrives and is expanded at the target. -/
  | remoteRequest (packet : Packet)
  /-- REMOTE_RESPONSE (R366). A response or acknowledgement arrives at the source. -/
  | remoteResponse (packet : Packet)
  /-- REQUEST_TIMEOUT (R364). The end-to-end timer expires and the request is resent or fails. -/
  | requestTimeout (dest seq : Nat)
  /-- LINK_REPLAY (R364). A flit fails its link check and is resent from the replay buffer. -/
  | linkReplay (port : Nat)
  /-- LINK_RETRAIN (R27). A link retrains, updating live fields and posting a link event. -/
  | linkRetrain (port rate : Nat)
  /-- HOST_POSTED_WRITE (R105). A host posted write passes the ordered-ingress point. -/
  | hostPostedWrite (addr : BitVec 64) (data : List (BitVec 8))
  /-- GRANT (R371). A GRANT message arrives at the lender. -/
  | grant (msg : LeaseMsg)
  /-- GRANTED (R369). A GRANTED answer arrives at the borrower. -/
  | granted (msg : LeaseMsg)
  /-- REFUSED (R371). A REFUSED message arrives. -/
  | refused (msg : LeaseMsg)
  /-- LMAP_TIMEOUT (R369). No answer to GRANT arrives within 100 µs. -/
  | lmapTimeout (lease : Nat)
  /-- NOTICE (R372). A reclaim NOTICE arrives at the borrower. -/
  | notice (msg : LeaseMsg)
  /-- RETURN (R371). A RETURN message arrives at the lender. -/
  | leaseReturn (msg : LeaseMsg)
  /-- DONE (R371). A lease DONE message arrives at the lender and frees the entry. -/
  | leaseDone (msg : LeaseMsg)
  /-- REVOKE (R372). A REVOKE message arrives at the borrower. -/
  | revoke (msg : LeaseMsg)
  /-- LENDER_DEADLINE (R371). D_L is reached; the lender frees the entry and sends REVOKE. -/
  | lenderDeadline (lease : Nat)
  /-- BORROWER_DEADLINE (R372). D_B is reached during demotion and the entry is revoked. -/
  | borrowerDeadline (lease : Nat)
  /-- CHECKPOINT_DATA (R375). Checkpoint data arrives at a target window. -/
  | checkpointData (data : CkptData)
  /-- CKPT_COMPLETE (R376). A checkpoint drain ends and its counter and event are raised. -/
  | ckptComplete
  /-- COLL_SIGN (R405). A member's walker has read its LNR, table and block and sends its signature. -/
  | collSign (die : Nat)
  /-- SIGNATURE (R405). A signature arrives at rank 0. -/
  | signature (msg : CollMsg)
  /-- GO (R405). GO arrives and the member starts emitting transfers. -/
  | go (msg : CollMsg)
  /-- ABORT (R405). ABORT arrives and the instance fails. -/
  | abort (msg : CollMsg)
  /-- SENT (R405). SENT arrives at rank 0. -/
  | sent (msg : CollMsg)
  /-- COLLECTIVE_DONE (R405). DONE arrives and the member raises its counter. -/
  | collectiveDone (msg : CollMsg)
  /-- COORDINATOR_TIMEOUT (R405). Signatures fail to arrive within 2^30 cycles and rank 0 aborts. -/
  | coordinatorTimeout (collid instNo : Nat)
  /-- COLL_TRANSFER (R409). A transfer packet arrives and is combined at the destination. -/
  | collTransfer (t : Transfer)
  /-- SWITCH_COMBINE (R411). An Asast switch combines contributions and forwards the union. -/
  | switchCombine (a b : Transfer)
  /-- RESUME (R424). A RESUME write with ACT 00 resumes a parked group. -/
  | resume (value : BitVec 64)
  /-- TERMINATE (R424). A RESUME write with ACT 01 terminates a group. -/
  | terminate (value : BitVec 64)
  /-- FQRIDX_WRITE (R421). Software moves a fault queue's read index, letting waiting trap records post. -/
  | fqridxWrite (part : Nat) (value : BitVec 64)
  /-- EQRIDX_WRITE (R421). Software moves an event queue's read index. -/
  | eqridxWrite (part : Nat) (value : BitVec 64)
  /-- EQOVFL_READ (R420). Reading the dropped-event count clears it. -/
  | eqovflRead (part : Nat)
  /-- TEARDOWN (R447). A PTEAR GO write starts partition teardown. -/
  | teardown (value : BitVec 64)
  /-- TEARDOWN_DONE (R447). Teardown finishes, BUSY clears and TEARDOWN is posted. -/
  | teardownDone
  /-- AUDIT_APPEND (R451). Appends an entry to the audit log and extends the chain head. -/
  | auditAppend (kind : Nat) (data : List (BitVec 8))
  /-- AUDIT_EXPORT (R452). Exports a signed audit log head. -/
  | auditExport
  /-- REGISTER_WRITE (R479). A host write to a register or window with no behaviour of its own. -/
  | registerWrite (bar offset : Nat) (value : BitVec 64)
  /-- DEVICE_RESET (R96). Reset brings every queue and register to its reset value. -/
  | deviceReset
  /-- MEASURED_BOOT (R453). The root ROM measures and verifies each boot stage in turn. -/
  | measuredBoot (image : List (BitVec 8))
  /-- GET_VERSION (R455). An SPDM GET_VERSION request is answered. -/
  | getVersion (request : List (BitVec 8))
  /-- GET_CAPABILITIES (R455). An SPDM GET_CAPABILITIES request is answered. -/
  | getCapabilities (request : List (BitVec 8))
  /-- NEGOTIATE_ALGORITHMS (R455). An SPDM NEGOTIATE_ALGORITHMS request is answered. -/
  | negotiateAlgorithms (request : List (BitVec 8))
  /-- GET_DIGESTS (R455). An SPDM GET_DIGESTS request is answered. -/
  | getDigests (request : List (BitVec 8))
  /-- GET_CERTIFICATE (R455). An SPDM GET_CERTIFICATE request is answered. -/
  | getCertificate (request : List (BitVec 8))
  /-- CHALLENGE (R455). An SPDM CHALLENGE request is answered with a signature. -/
  | challenge (request : List (BitVec 8))
  /-- GET_MEASUREMENTS (R455). An SPDM GET_MEASUREMENTS request returns signed measurement blocks. -/
  | getMeasurements (request : List (BitVec 8))
  /-- SOFT_ERROR (R426). An uncorrectable soft error terminates the affected group. -/
  | softError (gtag structure_ : Nat)
  /-- ECC_CORRECTED (R426). A corrected soft error is counted by the monitors. -/
  | eccCorrected (die : Nat)
  /-- MONITOR_SAMPLE (R449). A monitor unit records one sample of its source. -/
  | monitorSample (die unit : Nat) (value : BitVec 64)
  /-- FUSE_WRITE_BACK_COMPLETE (R128). The write-back and invalidation of a newly fused cluster's L1 lines ends, and its first group starts. -/
  | fuseWriteBackComplete (cluster : Nat)
  /-- FQBASE_WRITE (R421). A supervisor write of a fault queue's base retries the posting of trap records that are waiting on that queue. -/
  | fqbaseWrite (part : Nat) (value : BitVec 64)
  /-- MSI_X_UNMASK (R421). A host write that clears an MSI-X vector mask sends the message that is pending on that vector. -/
  | msiXUnmask (vector : Nat)
  /-- VECTOR_STORE_PERFORMED (R150). The accesses of a vector store or cache operation are performed at their point of coherence, and ST is returned. -/
  | vectorStorePerformed (gtag : Nat)
  /-- PEER_SCRATCHPAD_RETURN (R334). The accesses of a vldp or vstp are performed at their target scratchpads, the fault mask and data are written, and SP is returned. -/
  | peerScratchpadReturn (gtag : Nat)
  deriving DecidableEq, Repr

end Sys2Proof
end

