-- ==== Sys2Proof/WellFormed.lean ====
section
/-!
DEFINITION. The decode checks of a word that turn on the word alone: step 4 of R67 (03_opcode_map.md), with the
fields each instruction uses taken from its own chapter. `Instr.check` lists every reason code the word breaks; the
lowest is the one reported. Checks that need the group (reason 0x05, 0x09, the level of R2) are made by the machine.
-/
namespace Sys2Proof

/-- What the decode of a word says about it: the ILLEGAL reasons it breaks, and the registers R35 checks. -/
structure Check where
  reasons : List Nat := []
  vregs : List Nat := []
  accs : List Nat := []
  deriving DecidableEq, Repr

/-- `r` when `b` holds, nothing otherwise. -/
def failIf (b : Bool) (r : Nat) : List Nat := if b then [r] else []

/-- `x` has no bit outside `used`. -/
def within {n : Nat} (x : BitVec n) (used : Nat) : Bool := decide (x &&& ~~~(BitVec.ofNat n used) = 0)

/-- A nonzero field that is not used (reason 0x03). -/
def stray {n : Nat} (used : Bool) (x : BitVec n) : Bool := !used && decide (x ≠ 0)

/-- Decode checks of an FS word: which fields it uses, and which EXT bits. -/
def FS.check (f : FS) (sd sa sb imm : Bool) (ext : Nat := 0) (bad4 : Bool := false) (bad7 : Bool := false) : Check :=
  { reasons := failIf (stray sd f.sd || stray sa f.sa || stray sb f.sb || stray imm f.imm || !within f.ext ext) 3
      ++ failIf bad4 4 ++ failIf (f.cf ≠ 0) 6 ++ failIf bad7 7 }

/-- Decode checks of an FI word. -/
def FI.check (f : FI) (sd sa : Bool) (imm : Nat) (bad3 : Bool := false) (bad4 : Bool := false) (bad7 : Bool := false) :
    Check :=
  { reasons := failIf (stray sd f.sd || stray sa f.sa || !within f.imm imm || decide (f.ext ≠ 0) || bad3) 3
      ++ failIf bad4 4 ++ failIf (f.cf ≠ 0) 6 ++ failIf bad7 7 }

/-- Decode checks of an FO word: bits [51:2] are zero (R50, R168). -/
def FO.check (f : FO) : Check := { reasons := failIf (f.zero ≠ 0) 3 ++ failIf (f.cf ≠ 0) 6 }

/-- Decode checks of `br` (R165). -/
def FB.checkBr (f : FB) : Check :=
  { reasons := failIf (decide (f.cond = 0) && (decide (f.sa ≠ 0) || decide (f.sb ≠ 0))) 3
      ++ failIf (decide (f.cond.toNat > 6) || decide (f.hint = 3)) 4 ++ failIf (f.cf ≠ 0) 6 }

/-- Decode checks of `call` (R166). -/
def FB.checkCall (f : FB) : Check :=
  { reasons := failIf (decide (f.cond ≠ 0) || decide (f.sb ≠ 0) || decide (f.hint ≠ 0)) 3 ++ failIf (f.cf ≠ 0) 6 }

/-- An ORD and SCOPE pair that R51 and the row forbid (R161, R325, R343, R351, R399). -/
def badOrd (ord scope : Nat) (allowed : List Nat) (scopeMax : Nat := 6) : Bool :=
  !allowed.contains ord || decide (scope > scopeMax) || (decide (scope ≠ 0) && decide (ord = 0))

/-- ORD of a scalar memory word: word bits [5:4] (R161). -/
def FS.ord (f : FS) : Nat := (f.ext.extractLsb' 2 2).toNat
/-- SCOPE of a scalar memory word: word bits [8:6] (R161). -/
def FS.scope (f : FS) : Nat := (f.ext.extractLsb' 4 3).toNat
/-- W of a scalar memory word, or sh of `lea`, or CMP of `mwait`: word bits [3:2] (R154, R161, R399). -/
def FS.w (f : FS) : Nat := (f.ext.extractLsb' 0 2).toNat
/-- TY of a scalar floating-point word: word bits [5:2] (R157). -/
def FS.ty (f : FS) : Nat := (f.ext.extractLsb' 0 4).toNat
/-- RM of a scalar floating-point word: word bits [8:6] (R157). -/
def FS.rm (f : FS) : Nat := (f.ext.extractLsb' 4 3).toNat
/-- SAT of `fnarrow`: word bit [9] (R157). -/
def FS.sat (f : FS) : Bool := f.ext.getLsbD 7

/-- Decode checks of a scalar floating-point word (R157, R159). -/
def FS.checkFloat (f : FS) (sb : Bool) (types : List Nat) (sat : Bool := false) (rm0 : Bool := false) : Check :=
  f.check true true sb false (if sat then 0xFF else 0x7F)
    (decide (f.rm > 5) || (rm0 && decide (f.rm ≠ 0))) (!types.contains f.ty)

/-- Decode checks of `ld` (R161, R162). -/
def FS.checkLoad (f : FS) : Check := f.check true true false true 0x7C (badOrd f.ord f.scope [0, 1])
/-- Decode checks of `st` (R161, R162). -/
def FS.checkStore (f : FS) : Check := f.check false true true true 0x7C (badOrd f.ord f.scope [0, 2])
/-- Decode checks of the scalar atomics and `cas` (R161, R163). -/
def FS.checkAtomic (f : FS) : Check :=
  f.check true true true true 0x7F (badOrd f.ord f.scope [0, 1, 2, 3] || decide (f.w < 2))

/-- How a row of R197 uses a register field. -/
inductive Use where
  | none | vec | mask | scalar
  deriving DecidableEq, Repr

/-- When a row of R197 uses RM or SAT. -/
inductive When where
  | never | onFloat | onInt | always
  deriving DecidableEq, Repr

/-- The fields of an FV or FVS word, as numbers; `vb` is SB in FVS and `vc` the zero field. -/
structure VView where
  vd : Nat
  va : Nat
  vb : Nat
  vc : Nat
  mreg : Nat
  xm : Nat
  xmd : Nat
  rm : Nat
  sat : Nat
  ew : Nat
  imm : Nat
  cf : Nat
  deriving DecidableEq, Repr

/-- The fields of an FV word. -/
def FV.view (f : FV) : VView :=
  ⟨f.vd.toNat, f.va.toNat, f.vb.toNat, f.vc.toNat, f.mreg.toNat, f.xm.toNat, f.xmd.toNat, f.rm.toNat, f.sat.toNat,
   f.ew.toNat, f.imm.toNat, f.cf.toNat⟩

/-- The fields of an FVS word. -/
def FVS.view (f : FVS) : VView :=
  ⟨f.vd.toNat, f.va.toNat, f.sb.toNat, f.zero.toNat, f.mreg.toNat, f.xm.toNat, f.xmd.toNat, f.rm.toNat, f.sat.toNat,
   f.ew.toNat, f.imm.toNat, f.cf.toNat⟩

/-- TY: IMM16[3:0] (R69). -/
def VView.ty (v : VView) : Nat := v.imm % 16

/-- A row of R197 and the rows like it: which fields a vector word uses and which types it accepts. -/
structure VRow where
  vd : Use := .none
  va : Use := .none
  vb : Use := .none
  vc : Use := .none
  /-- the used bits among IMM16[15:4], as a mask of IMM16 -/
  imm : Nat := 0
  rm : When := .never
  sat : When := .never
  xm : Bool := false
  /-- whether EW may be nonzero -/
  ew : Bool := true
  /-- whether the word reads the mask that MREG names -/
  mreg : Bool := true
  /-- whether the word is long-latency (R47) -/
  cf : Bool := false
  types : List Nat
  deriving DecidableEq, Repr

/-- Type codes 0x0-0xE (R42). -/
def anyTypes : List Nat := [0, 1, 2, 3, 4, 5, 6, 7, 8, 9, 10, 11, 12, 13, 14]
/-- The integer types of R199. -/
def intTypes : List Nat := [0, 1, 2, 3, 4, 5, 6, 7]
/-- The float types of R199. -/
def floatTypes : List Nat := [8, 9, 10]
/-- Integer and float types of R199. -/
def numTypes : List Nat := intTypes ++ floatTypes

/-- Whether a type code is a float format (R42). DESIGN CHOICE (log entry 35): the formats of 8 bits and less (codes 11 to 14) count as
float for the checks of RM and SAT in R198 too. -/
def isFloatCode (t : Nat) : Bool := decide (8 ≤ t) && decide (t ≤ 14)

/-- The checks of R198 that turn on the type in force: RM, SAT and the type itself. -/
def VRow.typeReasons (r : VRow) (v : VView) (t : Nat) : List Nat :=
  failIf ((decide (r.rm = .onFloat) && decide (v.rm ≠ 0) && !isFloatCode t)
    || (decide (r.sat = .onInt) && decide (v.sat ≠ 0) && isFloatCode t)) 3
  ++ failIf (!r.types.contains t) 7

/-- A field against its use: nonzero where unused. -/
def Use.stray (u : Use) (x : Nat) : Bool := decide (u = .none) && decide (x ≠ 0)
/-- A mask field that names no mask register (R198). -/
def Use.badMask (u : Use) (x : Nat) : Bool := decide (u = .mask) && decide (x > 7)

/-- The decode checks of a vector word but for its element type (R198, R51). -/
def VRow.fieldReasons (r : VRow) (v : VView) : List Nat :=
  failIf (r.vd.stray v.vd || r.va.stray v.va || r.vb.stray v.vb || r.vc.stray v.vc
      || decide (v.imm / 16 * 16 ≠ Nat.land (v.imm / 16 * 16) r.imm)
      || (decide (r.rm = .never) && decide (v.rm ≠ 0)) || (decide (r.sat = .never) && decide (v.sat ≠ 0))
      || (!r.xm && (decide (v.xm ≠ 0) || decide (v.xmd ≠ 0))) || (!r.ew && decide (v.ew ≠ 0)) || (!r.mreg && decide (v.mreg ≠ 0))) 3
  ++ failIf (r.vd.badMask v.vd || r.va.badMask v.va || r.vb.badMask v.vb || r.vc.badMask v.vc
      || decide (v.rm > 5) || decide (v.ew > 4)
      || (r.xm && ((decide (v.xm = 1) && decide (v.xmd = 0)) || (decide (v.xm = 0) && decide (v.xmd ≠ 0))))) 4
  ++ failIf (!r.cf && decide (v.cf ≠ 0)) 6

/-- The vector registers that the fields of a word name (R35). -/
def VRow.vregs (r : VRow) (v : VView) : List Nat :=
  (if r.vd = .vec then [v.vd] else []) ++ (if r.va = .vec then [v.va] else [])
  ++ (if r.vb = .vec then [v.vb] else []) ++ (if r.vc = .vec then [v.vc] else [])

/-- All decode checks of a vector word with one element type (R69, R198). -/
def VRow.check (r : VRow) (v : VView) : Check :=
  { reasons := r.fieldReasons v
      ++ (if v.ty = 15 then [] else failIf (r.ew && decide (v.ew ≠ 0)) 4 ++ r.typeReasons v v.ty)
    vregs := r.vregs v }

/-- Rows of R197, by kind. -/
def VRow.vvv (types : List Nat) (rm sat : When := .never) : VRow :=
  { vd := .vec, va := .vec, vb := .vec, rm := rm, sat := sat, xm := true, types := types }
/-- As `vvv` with a scalar in place of vb. -/
def VRow.vvs (types : List Nat) (rm sat : When := .never) : VRow :=
  { vd := .vec, va := .vec, vb := .scalar, rm := rm, sat := sat, xm := true, types := types }
/-- One vector source. -/
def VRow.vv (types : List Nat) (rm sat : When := .never) (xm : Bool := true) : VRow :=
  { vd := .vec, va := .vec, rm := rm, sat := sat, xm := xm, types := types }
/-- Three vector sources. -/
def VRow.vvvv (types : List Nat) (rm sat : When := .never) : VRow :=
  { vd := .vec, va := .vec, vb := .vec, vc := .vec, rm := rm, sat := sat, xm := true, types := types }
/-- A vector source and an immediate. -/
def VRow.vvi (sat : When := .never) : VRow :=
  { vd := .vec, va := .vec, imm := 0xFFF0, sat := sat, xm := true, types := intTypes }
/-- A compare. -/
def VRow.cmp : VRow := { vd := .mask, va := .vec, vb := .vec, xm := true, types := numTypes }
/-- Mask logic of two sources. -/
def VRow.mmm : VRow := { vd := .mask, va := .mask, vb := .mask, types := anyTypes }
/-- Mask logic of one source. -/
def VRow.mm : VRow := { vd := .mask, va := .mask, types := anyTypes }
/-- A mask read into a scalar. -/
def VRow.sm : VRow := { va := .mask, vb := .scalar, types := anyTypes }
/-- A vector source and a mask in VB. -/
def VRow.vvm (types : List Nat) (rm sat : When := .never) (xm : Bool := false) : VRow :=
  { vd := .vec, va := .vec, vb := .mask, rm := rm, sat := sat, xm := xm, types := types }
/-- A reduction to a scalar (R221). -/
def VRow.red (types : List Nat) (rm sat : When := .never) : VRow :=
  { va := .vec, vb := .scalar, rm := rm, sat := sat, cf := true, types := types }
/-- A quad exchange (R217). -/
def VRow.quad (imm : Nat) : VRow := { vd := .vec, va := .vec, imm := imm, xm := true, types := anyTypes }

/-- Decode checks of a word with two type codes: `vqscale`, `vqapply`, `vdqapply` (R185) and the conversions (R189). -/
def VRow.check2 (r : VRow) (v : VView) (bad : Bool) : Check :=
  { reasons := r.fieldReasons v ++ failIf bad 7, vregs := r.vregs v }

/-- The second type code: IMM16[7:4] (R185, R189). -/
def VView.ty2 (v : VView) : Nat := v.imm / 16 % 16

/-- The quantised types of R185. -/
def quantTypes : List Nat := [0, 11, 12, 13]

/-- Both explicit type codes of an 0x31 word are accepted (R185). -/
def badQuant (v : VView) : Bool :=
  (decide (v.ty ≠ 15) && !quantTypes.contains v.ty) || (decide (v.ty2 ≠ 15) && !floatTypes.contains v.ty2)

/-- The width in bits of a type code (R42); 0 for the bit-plane code. -/
def typeWidth (t : Nat) : Nat :=
  match t with
  | 0 | 4 | 11 | 12 | 14 => 8
  | 1 | 5 | 9 | 10 => 16
  | 2 | 6 | 8 => 32
  | 3 | 7 => 64
  | 13 => 4
  | _ => 0

/-- Which conversion pairs an FN of 0x30 accepts (R189): 0 equal widths, 1 wider, 2 narrower. -/
def pairAccepted (fn d s : Nat) : Bool :=
  if d ≥ 14 || s = 15 then false
  else if s = 14 then decide (fn = 1) && decide (d = 8)
  else match fn with
    | 0 => decide (typeWidth d = typeWidth s)
    | 1 => decide (typeWidth d > typeWidth s)
    | _ => decide (typeWidth d < typeWidth s)

/-- A pair that a conversion of this FN rejects at decode: both codes are explicit (R189). -/
def badConvert (fn : Nat) (v : VView) : Bool :=
  decide (v.ty ≠ 15) && decide (v.ty2 ≠ 15) && !pairAccepted fn v.ty v.ty2

/-- The row of the conversions (R189). -/
def VRow.convert : VRow :=
  { vd := .vec, va := .vec, imm := 0xF0, rm := .always, sat := .always, xm := true, ew := false, types := anyTypes }

/-- The row of `vqapply` and `vdqapply` (R185). -/
def VRow.quant : VRow :=
  { vd := .vec, va := .vec, vb := .vec, imm := 0xF0, rm := .always, sat := .always, xm := true, ew := false,
    types := anyTypes }

/-- How a row uses bit 19 of an FM word: it is zero, it is a flag of the row, or it is the flag U that only the
minimum and maximum may set (R325). -/
inductive Bit19 where
  | zero | used | notU
  deriving DecidableEq, Repr

/-- How a row of R325 or R354 uses the fields of an FM word. -/
structure MRow where
  vd : Bool := true
  ords : List Nat
  scopeMax : Nat := 6
  b19 : Bit19 := .zero
  na : Bool := false
  x : Bool := false
  remote : Bool := false
  deriving DecidableEq, Repr

/-- Decode checks of an FM word of 0x40, 0x41, 0x43-0x45 and 0x48-0x4B (R325, R354). -/
def MRow.check (r : MRow) (f : FM) : Check :=
  { reasons :=
      failIf (stray r.vd f.vd || (decide (f.am ≠ 1) && decide (f.sb ≠ 0)) || (decide (f.am.toNat < 2) && decide (f.vi ≠ 0))
        || (decide (r.b19 = .zero) && decide (f.fof ≠ 0)) || stray r.na f.na || (!r.x && f.imm.getLsbD 12)) 3
      ++ failIf (badOrd f.ord.toNat f.scope.toNat r.ords r.scopeMax || decide (f.ew.toNat > 4)
        || (decide (r.b19 = .notU) && decide (f.fof ≠ 0))
        || (r.remote && (decide (f.sa = 0) || decide (f.sa = 63)))) 4
      ++ failIf (!r.remote && decide (f.cf ≠ 0)) 6
    vregs := (if r.vd then [f.vd.toNat] else []) ++ (if f.am.toNat ≥ 2 then [f.vi.toNat] else []) }

/-- Decode checks of `vldp` and `vstp` (R325). -/
def FM.checkPeer (f : FM) (ords : List Nat) : Check :=
  { reasons :=
      failIf (decide (f.sa ≠ 0) || decide (f.sb.toNat ≥ 8) || decide (f.fof ≠ 0) || decide (f.na ≠ 0)
        || decide (f.imm ≠ 0)) 3
      ++ failIf (badOrd f.ord.toNat f.scope.toNat ords 4 || decide (f.ew.toNat > 4) || decide (f.am.toNat < 2)
        || decide (f.sb.toNat % 8 = 0)) 4
      ++ failIf (f.cf ≠ 0) 6
    vregs := [f.vd.toNat, f.vi.toNat] }

/-- A field that must name the first of three registers (R226, R254). -/
def badTriple (x : BitVec 6) : Bool := decide (x.toNat ≥ 62)

/-- A value of SPAR that R51 makes illegal. -/
def badSpar (f : FX) : Bool := decide (f.spar.toNat > 1)

/-- The formats, layout and sparsity that `mxmul` accepts (R253). -/
def badMatrix (f : FX) : Bool :=
  let a := f.afmt.toNat
  let b := f.bfmt.toNat
  let float8 (t : Nat) : Bool := t = 11 || t = 12
  let int8 (t : Nat) : Bool := t = 0 || t = 4
  let scales : Bool := (float8 a && float8 b) || (a = 13 && b = 13)
  let listed : Bool := (a = 9 && b = 9) || (a = 10 && b = 10) || scales || (int8 a && int8 b)
  !listed || decide (f.shape.toNat > 1) || (decide (f.shape = 1) && decide (b = 13))
    || badSpar f || (!scales && decide (f.sc ≠ 0))

/-- Decode checks of `mxmul` (R254, R257). -/
def FX.checkMul (f : FX) : Check :=
  { reasons := failIf (f.ext ≠ 0) 3
      ++ failIf (decide (f.sa = 0) || badTriple f.sa || decide (f.sb = 0) || badTriple f.sb || badTriple f.sc
        || badSpar f) 4
      ++ failIf (badMatrix f) 8
    accs := [f.acc.toNat] }

/-- Decode checks of `mxbp` (R253, R254, R257). -/
def FX.checkBp (f : FX) : Check :=
  { reasons := failIf (!within f.ext 0x7) 3
      ++ failIf (decide (f.sa = 0) || badTriple f.sa || decide (f.sb = 0) || badTriple f.sb || badTriple f.sc
        || decide (f.ext.extractLsb' 0 3 = 0) || badSpar f) 4
      ++ failIf (!(f.afmt = 0 || f.afmt = 4) || decide (f.bfmt ≠ 15) || decide (f.shape ≠ 0) || decide (f.spar ≠ 0)
        || decide (f.sc ≠ 0)) 8
    accs := [f.acc.toNat] }

/-- Decode checks of `rkacc` (R287). -/
def FX.checkRk (f : FX) : Check :=
  { reasons := failIf (f.ext ≠ 0) 3
      ++ failIf (decide (f.sa = 0) || badTriple f.sa || decide (f.sb = 0) || badTriple f.sb || badSpar f) 4
      ++ failIf (decide (f.sc ≠ 0) || decide (f.shape ≠ 0) || decide (f.spar ≠ 0) || decide (f.afmt ≠ 9)
        || !([9, 10, 11, 12].contains f.bfmt.toNat)) 8
    accs := [f.acc.toNat] }

/-- VD of `mxext` and the register of `mxmov`: word bits [49:45] (R271, R273). -/
def FX.reg (f : FX) : Nat := f.sa.toNat / 2
/-- VS of `mxext`: word bits [37:33] (R271). -/
def FX.vs (f : FX) : Nat := f.sc.toNat / 2
/-- SCL of `mxext`: word bit [32] (R271). -/
def FX.scl (f : FX) : Bool := f.sc.getLsbD 0
/-- RM of `mxext`: word bits [13:11] (R271). -/
def FX.rm (f : FX) : Nat := (f.ext.extractLsb' 9 3).toNat
/-- SAT of `mxext`: word bit [10] (R271). -/
def FX.sat (f : FX) : Bool := f.ext.getLsbD 8

/-- Decode checks of `mxext` (R271). -/
def FX.checkExt (f : FX) : Check :=
  { reasons := failIf (f.sa.getLsbD 0 || decide (f.sb ≠ 0) || decide (f.spar ≠ 0) || !within f.ext 0xF00) 3
      ++ failIf ((f.scl && !quantTypes.contains f.afmt.toNat) || (!f.scl && decide (f.vs ≠ 0)) || decide (f.rm > 5)) 4
      ++ failIf (!(f.bfmt = 8 || f.bfmt = 2) || decide (f.afmt.toNat ≥ 14)) 7
    vregs := f.reg :: (if f.scl then [f.vs] else [])
    accs := [f.acc.toNat] }

/-- Decode checks of `mxmov.in` and `mxmov.out` (R273). -/
def FX.checkMov (f : FX) : Check :=
  { reasons := failIf (f.sa.getLsbD 0 || decide (f.sb ≠ 0) || decide (f.sc ≠ 0) || decide (f.afmt ≠ 0)
      || decide (f.bfmt ≠ 0) || decide (f.spar ≠ 0) || decide (f.ext ≠ 0)) 3 ++ failIf (f.cf ≠ 0) 6
    vregs := [f.reg]
    accs := [f.acc.toNat] }

/-- Decode checks of `mxclr` (R273). -/
def FX.checkClr (f : FX) : Check :=
  { reasons := failIf (decide (f.sa ≠ 0) || decide (f.sb ≠ 0) || decide (f.sc ≠ 0) || decide (f.mreg ≠ 0)
      || decide (f.shape ≠ 0) || decide (f.afmt ≠ 0) || decide (f.bfmt ≠ 0) || decide (f.spar ≠ 0)
      || decide (f.ext ≠ 0)) 3 ++ failIf (f.cf ≠ 0) 6
    accs := [f.acc.toNat] }

/-- SD of a form word: word bits [11:6] (R225). -/
def FF.sd (f : FF) : BitVec 6 := f.ext.extractLsb' 4 6
/-- NA of a form word: word bit [5] (R225). -/
def FF.na (f : FF) : Bool := f.ext.getLsbD 3
/-- SUB of a form word: word bits [4:2] (R225). -/
def FF.sub (f : FF) : Nat := (f.ext.extractLsb' 0 3).toNat

/-- How a stream field is used: not at all, required or optional (R225). -/
inductive StreamUse where
  | no | required | optional
  deriving DecidableEq, Repr

/-- A stream field that must be zero and is not. -/
def StreamUse.stray (u : StreamUse) (x : BitVec 6) : Bool := decide (u = .no) && decide (x ≠ 0)
/-- A stream field that R226 rejects. -/
def StreamUse.bad (u : StreamUse) (x : BitVec 6) : Bool :=
  (decide (u = .required) && decide (x = 0)) || (decide (u ≠ .no) && badTriple x)

/-- Decode checks of a form word (R225, R226). -/
def FF.check (f : FF) (sb sc sd : StreamUse) (vd nest : Bool) (sub : Nat) (gapply : Bool := false) : Check :=
  { reasons := failIf (sb.stray f.sb || sc.stray f.sc || sd.stray f.sd || stray vd f.vd || stray vd f.attr
        || stray nest f.nest || decide (Nat.land f.sub sub ≠ f.sub)) 3
      ++ failIf (StreamUse.required.bad f.sa || sb.bad f.sb || sc.bad f.sc || sd.bad f.sd
        || (gapply && decide (f.sc ≠ 0) && decide (f.sb = 0))) 4
    vregs := if vd then [f.vd.toNat] else [] }

/-- Decode checks of an FC word: which of SA, SB, SC, SD it uses, the used bits of TCID, Q, EXT, ORD and SCOPE. -/
def FC.check (f : FC) (sa sb sc sd : Bool) (tcid : Nat := 0) (q : Bool := false) (ordered : Bool := false)
    (ext : Nat := 0) (bad4 : Bool := false) (longLat : Bool := false) : Check :=
  { reasons := failIf (stray sa f.sa || stray sb f.sb || stray sc f.sc || stray sd f.sd || !within f.tcid tcid
        || stray q f.q || stray ordered f.ord || stray ordered f.scope || !within f.ext ext) 3
      ++ failIf bad4 4 ++ failIf (!longLat && decide (f.cf ≠ 0)) 6 }

/-- Register indices of R39. -/
def assignedSr (i : Nat) : Bool :=
  decide (i ≤ 7) || (decide (0x10 ≤ i) && decide (i ≤ 0x12)) || (decide (0x20 ≤ i) && decide (i ≤ 0x27))
  || (decide (0x30 ≤ i) && decide (i ≤ 0x35)) || (decide (0x100 ≤ i) && decide (i ≤ 0x105))
  || (decide (0x200 ≤ i) && decide (i ≤ 0x204)) || (decide (0x208 ≤ i) && decide (i ≤ 0x217))

/-- The state register index of `getsr` and `setsr`: IMM32[11:0] (R435). -/
def FI.index (f : FI) : Nat := (f.imm.extractLsb' 0 12).toNat

/-- BLK and FMT of `vsetvl` (R179). -/
def FI.badVsetvl (f : FI) : Bool :=
  decide (f.imm.extractLsb' 0 4 = 15) || decide ((f.imm.extractLsb' 4 3).toNat > 3)

/-- An immediate shift count outside 0-63 (R155). -/
def FS.badShift (f : FS) : Bool := decide (f.imm.toNat > 63)

/-- The row of `vbpack` and `vbunpack` (R191). -/
def VRow.planes (imm : Nat) : VRow :=
  { vd := .vec, va := .vec, imm := imm, ew := false, types := [0] }
/-- The row of `vrank` (R280). -/
def VRow.rank (types : List Nat) : VRow :=
  { vd := .vec, va := .vec, imm := 0x0FF0, xm := true, ew := false, types := types }

/-- `r` as a row of `vrkmerge` or `vrkpack`: k and the key type; the words read no mask (R282). -/
def VRow.keyed (r : VRow) : VRow := { r with imm := 0x7FF0, ew := false, mreg := false, types := [8, 9, 10, 2, 1] }
/-- The row of `unrank` (R291). -/
def VRow.unrank : VRow :=
  { vd := .vec, va := .vec, imm := 0x7FF0, rm := .always, xm := true, ew := false, types := floatTypes }

/-- `c` with reason 0x04 added when `b` holds. -/
def Check.or4 (c : Check) (b : Bool) : Check := { c with reasons := c.reasons ++ failIf b 4 }

/-- The row of R197 (and of R191, R280, R291) of each vector word that has one element type. -/
def Instr.vrow : Instr → Option (VRow × VView)
  | .vbcast f => some ({ vd := .vec, vb := .scalar, types := anyTypes }, f.view)
  | .vins f => some ({ vd := .vec, vb := .scalar, imm := 0xFFF0, types := anyTypes }, f.view)
  | .mput f => some ({ vd := .mask, vb := .scalar, imm := 0x1F0, mreg := false, types := anyTypes }, f.view)
  | .vadd f | .vsub f | .vmul f => some ((VRow.vvv numTypes .onFloat .onInt), f.view)
  | .vmin f | .vmax f => some ((VRow.vvv numTypes .onFloat), f.view)
  | .vand f | .vor f | .vxor f | .vsll f | .vsrl f | .vsra f => some ((VRow.vvv intTypes), f.view)
  | .vnot f => some ((VRow.vv intTypes), f.view)
  | .vaddVs f | .vsubVs f | .vmulVs f => some ((VRow.vvs numTypes .onFloat .onInt), f.view)
  | .vminVs f | .vmaxVs f => some ((VRow.vvs numTypes .onFloat), f.view)
  | .vandVs f | .vorVs f | .vxorVs f | .vsllVs f | .vsrlVs f | .vsraVs f => some ((VRow.vvs intTypes .onFloat), f.view)
  | .vdiv f => some ((VRow.vvv numTypes .onFloat), f.view)
  | .vsqrt f => some ((VRow.vv floatTypes .onFloat), f.view)
  | .vabs f | .vneg f => some ((VRow.vv numTypes .never .onInt), f.view)
  | .vffma f | .vffms f | .vffnma f | .vffnms f => some ((VRow.vvvv floatTypes .onFloat), f.view)
  | .vmulh f => some ((VRow.vvv intTypes .onFloat), f.view)
  | .vabd f => some ((VRow.vvv numTypes .onFloat), f.view)
  | .vwadd f | .vwmul f => some ((VRow.vvv [0, 1, 2, 4, 5, 6, 9, 10] .onFloat), f.view)
  | .vfexp2 f | .vflog2 f | .vfrcp f | .vfrsq f | .vftanh f => some ((VRow.vv [8]), f.view)
  | .vdot4 f => some ((VRow.vvvv [0, 4] .never .onInt), f.view)
  | .vfdot2 f => some ((VRow.vvvv [9, 10] .onFloat), f.view)
  | .vfdot4 f => some ((VRow.vvvv [11, 12] .onFloat), f.view)
  | .vid f => some ({ vd := .vec, types := intTypes }, f.view)
  | .viota f => some ({ vd := .vec, va := .mask, types := intTypes }, f.view)
  | .vmerge f => some ({ vd := .vec, va := .vec, vb := .vec, vc := .mask, types := anyTypes }, f.view)
  | .vmv f => some ((VRow.vv anyTypes .never .never false), f.view)
  | .vaddImm f => some ((VRow.vvi .onInt), f.view)
  | .vandImm f | .vsllImm f | .vsrlImm f | .vsraImm f => some (VRow.vvi, f.view)
  | .vclz f | .vctz f | .vpopc f => some ((VRow.vv intTypes), f.view)
  | .vfsgnj f => some ((VRow.vvv floatTypes), f.view)
  | .vfround f => some ((VRow.vv floatTypes .onFloat), f.view)
  | .vcmpeq f | .vcmpne f | .vcmplt f | .vcmple f | .vcmpun f => some (VRow.cmp, f.view)
  | .mand f | .mor f | .mxor f | .mandn f => some (VRow.mmm, f.view)
  | .mnot f => some (VRow.mm, f.view)
  | .msbf f | .msif f | .msof f => some (VRow.mm, f.view)
  | .mfirst f | .mpopc f => some (VRow.sm, f.view)
  | .vbpack f => some ((VRow.planes 0x0FF0), f.view)
  | .vfclass f => some ((VRow.vv floatTypes .never .never false), f.view)
  | .vperm f => some ((VRow.vvv anyTypes), f.view)
  | .vrev f => some ((VRow.vv anyTypes), f.view)
  | .vslideup f | .vslidedn f | .vslide1up f | .vslide1dn f => some ((VRow.vvs anyTypes), f.view)
  | .vqx f | .vqy f | .vqd f => some ((VRow.quad 0x8000), f.view)
  | .vqbc f => some ((VRow.quad 0x8030), f.view)
  | .vredsum f => some ((VRow.red numTypes .onFloat .onInt), f.view)
  | .vredmin f | .vredmax f => some ((VRow.red numTypes .onFloat), f.view)
  | .vredand f | .vredor f | .vredxor f => some ((VRow.red intTypes .onFloat), f.view)
  | .vsegscanAdd f | .vsegredAdd f => some ((VRow.vvm numTypes .onFloat .onInt), f.view)
  | .vsegscanMin f | .vsegscanMax f | .vsegredMin f | .vsegredMax f => some ((VRow.vvm numTypes .onFloat), f.view)
  | .vcompress f | .vexpand f => some ((VRow.vvm anyTypes .never .never true), f.view)
  | .vrank f => some ((VRow.rank [8, 9, 10, 2, 1]), f.view)
  | .vrankMag f => some ((VRow.rank floatTypes), f.view)
  | .unrank f => some (VRow.unrank, f.view)
  | _ => none

/-- What decoding says of each word (R67); an event has no word. -/
def Instr.check : Instr → Check
  | .add f | .sub f | .mul f | .mulh f | .div f | .divu f | .rem f | .remu f | .and f | .or f | .xor f | .sll f
  | .srl f | .sra f | .slt f | .sltu f => f.check true true true false
  | .addImm f | .andImm f | .orImm f | .xorImm f | .sltImm f => f.check true true false true
  | .sllImm f | .srlImm f | .sraImm f => f.check true true false true 0 f.badShift
  | .li f => f.check true false 0xFFFFFFFF
  | .lhi f => f.check true true 0xFFFFFFFF
  | .clz f | .ctz f | .popc f | .bswap f => f.check true true false false
  | .lea f => f.check true true true true 0x3
  | .leaImm f => f.check true true false true 0x3
  | .pcaddr f => f.check true false 0xFFFFFFFF
  | .fadd f | .fsub f | .fmul f | .fdiv f | .ffma f | .fmin f | .fmax f | .feq f | .flt f | .fle f =>
      f.checkFloat true floatTypes
  | .fsqrt f | .fcvti f | .ficvt f => f.checkFloat false floatTypes
  | .fnarrow f => f.checkFloat false [9, 10, 11, 12, 13] true
  | .fwiden f => f.checkFloat false [9, 10, 11, 12, 13] false true
  | .nop f | .yield f | .endGroup f | .vdrain f | .eret f => f.check
  | .vget f =>
      { f.check true true 0xFFFF (decide (f.sa.toNat ≥ 32)) false with vregs := [f.sa.toNat] }
  | .mget f => f.check true true 0x1F00 (decide (f.sa.toNat ≥ 8))
  | .ldI8 f | .ldI16 f | .ldI32 f | .ldI64 f | .ldN8 f | .ldN16 f | .ldN32 f => f.checkLoad
  | .stN8 f | .stN16 f | .stN32 f | .stN64 f => f.checkStore
  | .lds f => f.check true true false true 0x3
  | .sts f => f.check false true true true 0x3
  | .aadd f | .aand f | .aor f | .axor f | .amin f | .amax f | .aswap f | .cas f => f.checkAtomic
  | .cflush f | .cwb f | .prefetch f => f.check false true false true
  | .icinv f => f.check false false false false
  | .br f => f.checkBr
  | .call f => f.checkCall
  | .jr f => f.check false true false true
  | .waitcLd f | .waitcSt f | .waitcSp f | .waitcCp f | .waitcMx f | .waitcFb f => f.check false true false false
  | .vcvt f => VRow.convert.check2 f.view (badConvert 0 f.view)
  | .vwcvt f => VRow.convert.check2 f.view (badConvert 1 f.view)
  | .vncvt f => VRow.convert.check2 f.view (badConvert 2 f.view)
  | .vqscale f =>
      VRow.check2 { vd := .vec, va := .vec, imm := 0x1FF0, xm := true, ew := false, types := anyTypes } f.view
        (badQuant f.view)
  | .vqapply f | .vdqapply f => VRow.quant.check2 f.view (badQuant f.view)
  | .vsetvl f => f.check true true 0x7F false f.badVsetvl
  | .vbunpack f => ((VRow.planes 0x7FF0).check f.view).or4 (f.view.imm / 4096 % 8 = 0)
  | .vld f => MRow.check { ords := [0, 1], b19 := .used, na := true, x := true } f
  | .vst f => MRow.check { ords := [0, 2], na := true } f
  | .vlds f => MRow.check { ords := [0, 1], scopeMax := 1, x := true } f
  | .vsts f => MRow.check { ords := [0, 2], scopeMax := 1 } f
  | .vldp f => f.checkPeer [0, 1]
  | .vstp f => f.checkPeer [0, 2]
  | .vaadd f | .vafadd f | .vaand f | .vaor f | .vaxor f | .vaswap f =>
      MRow.check { ords := [0, 1, 2, 3], b19 := .notU, x := true } f
  | .vamin f | .vamax f => MRow.check { ords := [0, 1, 2, 3], x := true, b19 := .used } f
  | .vacas f => MRow.check { ords := [0, 1, 2, 3] } f
  | .vprefetch f => MRow.check { vd := false, ords := [0], na := true } f
  | .vcflush f | .vcwb f => MRow.check { vd := false, ords := [0] } f
  | .rld f => MRow.check { ords := [0, 1], remote := true } f
  | .rst f => MRow.check { ords := [0, 2], remote := true } f
  | .raadd f | .rafadd f | .raor f | .raswap f => MRow.check { ords := [0, 1, 2, 3], b19 := .notU, x := true, remote := true } f
  | .ramin f | .ramax f => MRow.check { ords := [0, 1, 2, 3], x := true, b19 := .used, remote := true } f
  | .rcas f => MRow.check { ords := [0, 1, 2, 3], remote := true } f
  | .tierq f => f.check true true false true
  | .map f => f.check .no .no .required false true 0
  | .zip f => f.check .required .optional .required false false 0
  | .reduce f => f.check .no .no .no true false 1
  | .scan f | .scanX f => f.check .no .no .required true false 1
  | .stencil f => f.check .no .no .required false false 7
  | .gapply f => f.check .optional .optional .required false false 7 true
  | .mxmul f | .mxmulZ f => f.checkMul
  | .mxbp f | .mxbpZ f => f.checkBp
  | .mxext f => f.checkExt
  | .mxmovIn f | .mxmovOut f => f.checkMov
  | .mxclr f => f.checkClr
  | .vrkmerge f => (VRow.keyed { vd := .vec, va := .vec, vb := .vec, types := [] }).check f.view
  | .vrkpack f => (VRow.keyed { vd := .vec, va := .vec, types := [] }).check f.view
  | .rkacc f => f.checkRk
  | .ldattAtt f | .ldattRec f => f.check false true 0xFFFFFFFF
  | .copy f => f.check true true false false 0 true true 1 (badOrd f.ord.toNat f.scope.toNat [0, 2]) true
  | .tcopy f => f.check true true true true 0xFFF true true 0 (badOrd f.ord.toNat f.scope.toNat [0, 2]) true
  | .coll f => f.check true true true true 0 false true 0
      (badOrd f.ord.toNat f.scope.toNat [0, 2] || decide (f.sa = 0) || decide (f.sb = 0)) true
  | .launch f => f.check true false false true
  | .ctradd f => f.check true true false true 0 false true 0 (badOrd f.ord.toNat f.scope.toNat [0, 1, 2, 3])
  | .ctrwait f => f.check true true false true 0 false true 0 (badOrd f.ord.toNat f.scope.toNat [0, 1])
  | .ctrset f => f.check true true false false 0 false true 0 (badOrd f.ord.toNat f.scope.toNat [0, 2])
  | .pmigrate f => f.check true true true true
  | .ckpt f => f.check true true false true
  | .fence f => f.check false false false false 0 false true 0 (badOrd f.ord.toNat f.scope.toNat [1, 2, 3])
  | .bar f => f.check true false false false 0xF false true 0
      (decide (f.ord ≠ 0) || !(f.scope = 1 || f.scope = 2))
  | .gbar f => f.check false false false false 0 false true 0 (decide (f.ord ≠ 0) || decide (f.scope ≠ 4))
  | .fbar f => f.check false (f.ext.getLsbD 0) false false 0x3
  | .mwait f => f.check true true true true 0x7F (badOrd f.ord f.scope [0, 1] || decide (f.w = 3))
  | .trap f => f.check false false 0xFFFF
  | .getsr f => f.check true false 0xFFF false (!assignedSr f.index)
  | .setsr f => f.check false true 0xFFF false (!assignedSr f.index)
  | .getcap f => f.check true true 0xFFFFFFFF
  | .moncfg f | .monread f => f.check true true true false
  | .lexport f | .lmap f | .lreclaim f | .lack f => f.check true true false false
  | .ctxsave f | .scrub f => f.check true true true false
  | .ctxload f => f.check true true false false
  | i => match i.vrow with
    | some (r, v) => r.check v
    | none => {}

end Sys2Proof
end

