-- ==== Sys2Proof/Machine/Float.lean ====
section
/-!
DEFINITION. Floating-point values and rounding (R170-R174, R187, R190, R200): every format is read into an exact value,
computed on exactly, and narrowed once.
-/
namespace Sys2Proof.Machine

/-- XFLAGS bits (R41). -/
abbrev flNV : Nat := 1
abbrev flDZ : Nat := 2
abbrev flOF : Nat := 4
abbrev flUF : Nat := 8
abbrev flNX : Nat := 16
abbrev flSI : Nat := 32

/-- A floating-point format (R170): exponent and fraction widths, bias, its greatest finite value as m·2^e, whether it has
infinities, and its canonical NaN. -/
structure FloatFmt where
  ebits : Nat
  mbits : Nat
  bias : Nat
  maxM : Nat
  maxE : Int
  hasInf : Bool
  nan : Nat
  deriving DecidableEq, Repr

/-- The format of a type code (R42, R170); f32 for a code that is no float. -/
def floatFmt (t : Nat) : FloatFmt :=
  match t with
  | 9 => ⟨5, 10, 15, 2047, 5, true, 0x7E00⟩
  | 10 => ⟨8, 7, 127, 255, 120, true, 0x7FC0⟩
  | 11 => ⟨4, 3, 7, 14, 5, false, 0x7F⟩
  | 12 => ⟨5, 2, 15, 7, 13, true, 0x7E⟩
  | 13 => ⟨2, 1, 1, 3, 1, false, 0⟩
  | _ => ⟨8, 23, 127, 16777215, 104, true, 0x7FC00000⟩

/-- The width of a float format in bits. -/
def FloatFmt.width (f : FloatFmt) : Nat := 1 + f.ebits + f.mbits

/-- A value: NaN, infinity, or (−1)^neg · m · 2^e. -/
inductive FVal where
  | nan (signalling : Bool)
  | inf (neg : Bool)
  | fin (neg : Bool) (m : Nat) (e : Int)
  deriving DecidableEq, Repr

/-- The value of a bit pattern of type `t` (R170, R171, R172). -/
def readFloat (t bits : Nat) : FVal :=
  if t = 14 then (if bits % 256 = 255 then .nan false else .fin false 1 ((bits % 256 : Nat) - (127 : Int))) else
  let f := floatFmt t
  let neg := bitOf bits (f.ebits + f.mbits)
  let ex := bitsOf bits f.mbits f.ebits
  let fr := bitsOf bits 0 f.mbits
  if t = 11 && ex = 15 && fr = 7 then .nan false
  else if f.hasInf && ex = 2 ^ f.ebits - 1 then
    (if fr = 0 then .inf neg else .nan (!bitOf fr (f.mbits - 1)))
  else if ex = 0 then .fin neg fr (1 - (f.bias : Int) - f.mbits)
  else .fin neg (fr + 2 ^ f.mbits) ((ex : Int) - f.bias - f.mbits)

/-- An exact real as far as rounding asks: (−1)^neg times a number in [m·2^e, (m+1)·2^e), equal to the lower bound exactly
when `sticky` is false. -/
structure Exact where
  neg : Bool
  m : Nat
  e : Int
  sticky : Bool := false
  deriving DecidableEq, Repr

/-- Whether a magnitude with remainder is rounded up (R173): `odd` the last bit kept, `half` the remainder against one half
(0 below, 1 equal, 2 above), `any` whether there is a remainder. Modes: 1 RNE, 2 RTZ, 3 RDN, 4 RUP, 5 RNA. -/
def roundsUp (rm : Nat) (neg odd : Bool) (half : Nat) (any : Bool) : Bool :=
  match rm with
  | 2 => false
  | 3 => neg && any
  | 4 => !neg && any
  | 5 => decide (half ≥ 1)
  | _ => decide (half = 2) || (decide (half = 1) && odd)

/-- An exact real rounded to a multiple of 2^q (R173): the multiple, and whether the value changed. -/
def roundAt (rm : Nat) (x : Exact) (q : Int) : Nat × Bool :=
  if q ≤ x.e then (x.m * 2 ^ (x.e - q).toNat, x.sticky)
  else
    let sh := (q - x.e).toNat
    let r := x.m % 2 ^ sh
    let any := decide (r ≠ 0) || x.sticky
    let half :=
      if r < 2 ^ (sh - 1) then 0 else if r = 2 ^ (sh - 1) ∧ !x.sticky then 1 else 2
    let k := x.m / 2 ^ sh
    (if roundsUp rm x.neg (k % 2 = 1) half any then k + 1 else k, any)

/-- floor(log2 |x|), for a nonzero x. -/
def Exact.exponent (x : Exact) : Int := x.e + log2Floor x.m

/-- A sign in front of a magnitude's bits. -/
def withSign (f : FloatFmt) (neg : Bool) (mag : Nat) : Nat := bit neg * 2 ^ (f.ebits + f.mbits) + mag

/-- The bits of k·2^q, which the format can hold (R170). -/
def encodeFinite (f : FloatFmt) (neg : Bool) (k : Nat) (q : Int) : Nat :=
  if k < 2 ^ f.mbits then withSign f neg k
  else
    let l := log2Floor k
    let frac := k / 2 ^ (l - f.mbits) - 2 ^ f.mbits
    withSign f neg (((l : Int) + q + f.bias).toNat * 2 ^ f.mbits + frac)

/-- The greatest finite magnitude's bits. -/
def maxFinite (f : FloatFmt) (neg : Bool) : Nat := encodeFinite f neg f.maxM f.maxE
/-- An infinity's bits. -/
def infinity (f : FloatFmt) (neg : Bool) : Nat := withSign f neg ((2 ^ f.ebits - 1) * 2 ^ f.mbits)

/-- `ieee_overflow` of R174. -/
def ieeeOverflow (f : FloatFmt) (rm : Nat) (neg : Bool) : Nat :=
  match rm with
  | 2 => maxFinite f neg
  | 3 => if neg then infinity f neg else maxFinite f neg
  | 4 => if neg then maxFinite f neg else infinity f neg
  | _ => infinity f neg

/-- k·2^q exceeds the greatest finite magnitude. -/
def overMax (f : FloatFmt) (k : Nat) (q : Int) : Bool :=
  if q ≥ f.maxE then decide (k * 2 ^ (q - f.maxE).toNat > f.maxM) else decide (k > f.maxM * 2 ^ (f.maxE - q).toNat)

/-- `narrow_float` of R174 on an exact finite value. -/
def narrowExact (t rm : Nat) (sat : Bool) (x : Exact) : Nat × Nat :=
  let f := floatFmt t
  let qmin : Int := 1 - (f.bias : Int) - f.mbits
  if x.m = 0 && !x.sticky then (withSign f x.neg 0, 0) else
  let q := if x.m = 0 then qmin else max (x.exponent - f.mbits) qmin
  let (k, inexact) := roundAt rm x q
  if overMax f k q then
    if sat || t = 13 then (maxFinite f x.neg, flOF + flNX)
    else if t = 11 then (f.nan, flOF + flNX)
    else (ieeeOverflow f rm x.neg, flOF + flNX)
  else
    let tiny := decide (x.m = 0) || decide (x.exponent < 1 - (f.bias : Int))
    (encodeFinite f x.neg k q, if inexact then (if tiny then flNX + flUF else flNX) else 0)

/-- `narrow_float` of R174 on any value. -/
def narrowFloat (t rm : Nat) (sat : Bool) (x : FVal) : Nat × Nat :=
  let f := floatFmt t
  match x with
  | .nan sig => if t = 13 then (0, flNV) else (f.nan, if sig then flNV else 0)
  | .inf neg =>
    if f.hasInf && !sat then (infinity f neg, 0)
    else if t = 11 && !sat then (f.nan, flNV)
    else (maxFinite f neg, flOF)
  | .fin neg m e => narrowExact t rm sat ⟨neg, m, e, false⟩

/-- A NaN result of type `t` with the flags of the operands read (R171, R200). -/
def nanResult (t : Nat) (sig : Bool) : Nat × Nat := ((floatFmt t).nan, if sig then flNV else 0)

/-- A value is a signalling NaN. -/
def FVal.sig : FVal → Bool
  | .nan s => s
  | _ => false
/-- A value is a NaN. -/
def FVal.isNan : FVal → Bool
  | .nan _ => true
  | _ => false
/-- The sign of a value; NaN counts as positive. -/
def FVal.neg : FVal → Bool
  | .nan _ => false
  | .inf n => n
  | .fin n _ _ => n
/-- The value with its sign inverted. -/
def FVal.negate : FVal → FVal
  | .nan s => .nan s
  | .inf n => .inf !n
  | .fin n m e => .fin (!n) m e
/-- The magnitude of a value. -/
def FVal.abs : FVal → FVal
  | .nan s => .nan s
  | .inf _ => .inf false
  | .fin _ m e => .fin false m e
/-- A value is ±0. -/
def FVal.isZero : FVal → Bool
  | .fin _ m _ => decide (m = 0)
  | _ => false

/-- A signed significand. -/
def signedOf (neg : Bool) (m : Nat) : Int := if neg then -(m : Int) else m

/-- The exact sum of two finite values; the sign of an exact zero is that of IEEE 754-2019 (R200). -/
def exactAdd (rm : Nat) (n1 : Bool) (m1 : Nat) (e1 : Int) (n2 : Bool) (m2 : Nat) (e2 : Int) : Exact :=
  let e := min e1 e2
  let x := signedOf n1 (m1 * 2 ^ (e1 - e).toNat) + signedOf n2 (m2 * 2 ^ (e2 - e).toNat)
  if x = 0 then
    ⟨if n1 = n2 then n1 else rm = 3, 0, e, false⟩
  else ⟨decide (x < 0), x.natAbs, e, false⟩

/-- fop(a + b) (R200). -/
def floatAdd (t rm : Nat) (a b : FVal) : Nat × Nat :=
  if a.isNan || b.isNan then nanResult t (a.sig || b.sig) else
  match a, b with
  | .inf n, .inf m => if n = m then (infinity (floatFmt t) n, 0) else nanResult t true
  | .inf n, _ => (infinity (floatFmt t) n, 0)
  | _, .inf n => (infinity (floatFmt t) n, 0)
  | .fin n1 m1 e1, .fin n2 m2 e2 => narrowExact t rm false (exactAdd rm n1 m1 e1 n2 m2 e2)
  | _, _ => nanResult t false

/-- fop(a − b) (R200). -/
def floatSub (t rm : Nat) (a b : FVal) : Nat × Nat := floatAdd t rm a b.negate

/-- The exact product of two values, none when it is invalid or a NaN. -/
def productOf (a b : FVal) : FVal :=
  match a, b with
  | .nan s, _ => .nan s
  | _, .nan s => .nan s
  | .inf n, y => if y.isZero then .nan true else .inf (n != y.neg)
  | x, .inf n => if x.isZero then .nan true else .inf (n != x.neg)
  | .fin n1 m1 e1, .fin n2 m2 e2 => .fin (n1 != n2) (m1 * m2) (e1 + e2)

/-- fop(a·b) (R200). -/
def floatMul (t rm : Nat) (a b : FVal) : Nat × Nat :=
  if a.isNan || b.isNan then nanResult t (a.sig || b.sig) else
  match productOf a b with
  | .nan _ => nanResult t true
  | .inf n => (infinity (floatFmt t) n, 0)
  | .fin n m e => narrowExact t rm false ⟨n, m, e, false⟩

/-- fop(a·b + c), rounded once (R200). DESIGN CHOICE (log entry 35): 0·∞ plus a quiet NaN, which IEEE 754 leaves to the implementation, is
the canonical NaN without NV, in `ffma` and `plin` too (R87, R206). -/
def floatFma (t rm : Nat) (a b c : FVal) : Nat × Nat :=
  if a.isNan || b.isNan || c.isNan then nanResult t (a.sig || b.sig || c.sig) else
  match productOf a b with
  | .nan _ => nanResult t true
  | p => floatAdd t rm p c

/-- The exact quotient of two finite values, with enough bits for any format. -/
def exactDiv (n1 : Bool) (m1 : Nat) (e1 : Int) (n2 : Bool) (m2 : Nat) (e2 : Int) : Exact :=
  let k : Nat := 64 + log2Floor m2
  ⟨n1 != n2, m1 * 2 ^ k / m2, e1 - e2 - k, decide (m1 * 2 ^ k % m2 ≠ 0)⟩

/-- fop(a ÷ b) with DZ for a finite nonzero a over 0 (R200, R206). -/
def floatDiv (t rm : Nat) (a b : FVal) : Nat × Nat :=
  if a.isNan || b.isNan then nanResult t (a.sig || b.sig) else
  let f := floatFmt t
  match a, b with
  | .inf _, .inf _ => nanResult t true
  | .inf n, y => (infinity f (n != y.neg), 0)
  | x, .inf n => (withSign f (n != x.neg) 0, 0)
  | .fin n1 m1 e1, .fin n2 m2 e2 =>
    if m2 = 0 then (if m1 = 0 then nanResult t true else (infinity f (n1 != n2), flDZ))
    else if m1 = 0 then (withSign f (n1 != n2) 0, 0)
    else narrowExact t rm false (exactDiv n1 m1 e1 n2 m2 e2)
  | _, _ => nanResult t false

/-- The exact square root of m·2^e, with enough bits for any format. -/
def exactSqrt (m : Nat) (e : Int) : Exact :=
  let k : Nat := if e % 2 = 0 then 64 else 65
  let x := m * 2 ^ k
  let r := sqrtFrom x (log2Floor x / 2) 0
  ⟨false, r, (e - k) / 2, decide (r * r ≠ x)⟩

/-- fop(√a) (R200, R206). -/
def floatSqrt (t rm : Nat) (a : FVal) : Nat × Nat :=
  match a with
  | .nan s => nanResult t s
  | .inf n => if n then nanResult t true else (infinity (floatFmt t) false, 0)
  | .fin n m e =>
    if m = 0 then (withSign (floatFmt t) n 0, 0)
    else if n then nanResult t true
    else narrowExact t rm false (exactSqrt m e)

/-- a < b on values that are no NaN; ±0 are equal. -/
def valueLt (a b : FVal) : Bool :=
  match a, b with
  | .nan _, _ => false
  | _, .nan _ => false
  | .inf n, .inf m => n && !m
  | .inf n, _ => n
  | _, .inf n => !n
  | .fin n1 m1 e1, .fin n2 m2 e2 =>
    let e := min e1 e2
    decide (signedOf n1 (m1 * 2 ^ (e1 - e).toNat) < signedOf n2 (m2 * 2 ^ (e2 - e).toNat))

/-- a = b as values; false when either is a NaN; +0 = −0. -/
def valueEq (a b : FVal) : Bool := !a.isNan && !b.isNan && !valueLt a b && !valueLt b a

/-- NV when an operand is a signalling NaN (R171). -/
def nvSig (a b : FVal) : Nat := if a.sig || b.sig then flNV else 0
/-- NV when an operand is any NaN (R87, R212). -/
def nvAny (a b : FVal) : Nat := if a.isNan || b.isNan then flNV else 0

/-- minimumNumber and maximumNumber of IEEE 754-2019, −0 below +0 (R87 lops 0x14, 0x15), on bit patterns. -/
def floatMinMax (t : Nat) (isMax : Bool) (x y : Nat) : Nat × Nat :=
  let a := readFloat t x
  let b := readFloat t y
  let fl := nvSig a b
  if a.isNan && b.isNan then ((floatFmt t).nan, fl)
  else if a.isNan then (y, fl)
  else if b.isNan then (x, fl)
  else
    let less := valueLt a b || (a.isZero && b.isZero && a.neg && !b.neg)
    (if less != isMax then x else y, fl)

/-- `float_to_int` of R187: rounding in rm, then clamping to [lo, hi]. -/
def floatToInt (rm : Nat) (lo hi : Int) (x : FVal) : Int × Nat :=
  match x with
  | .nan _ => (0, flNV)
  | .inf n => (if n then lo else hi, flNV)
  | .fin n m e =>
    let (k, inexact) := roundAt rm ⟨n, m, e, false⟩ 0
    let y := signedOf n k
    if y < lo then (lo, flNV) else if y > hi then (hi, flNV) else (y, if inexact then flNX else 0)

/-- Rounding to an integral value of the same type (`vfround`, R206). -/
def floatRound (t rm x : Nat) : Nat × Nat :=
  match readFloat t x with
  | .nan s => nanResult t s
  | .inf _ => (x, 0)
  | .fin n m e =>
    if m = 0 then (x, 0)
    else
      let (k, inexact) := roundAt rm ⟨n, m, e, false⟩ 0
      ((narrowExact t rm false ⟨n, k, 0, false⟩).1, if inexact then flNX else 0)

/-- An integer to a float type (R159 `ficvt`, R190). -/
def intToFloat (t rm : Nat) (sat : Bool) (x : Int) : Nat × Nat :=
  narrowExact t rm sat ⟨decide (x < 0), x.natAbs, 0, false⟩

/-- A float of a narrower or equal type as f32 or any wider type, exactly (R159 `fwiden`, R190). -/
def widenFloat (t s x : Nat) : Nat × Nat :=
  match readFloat s x with
  | .nan sig => nanResult t sig
  | v => narrowFloat t 1 false v

/-- The least and greatest values of an integer type code (R42). -/
def intRange (t : Nat) : Int × Int :=
  let w := typeWidth t
  if t < 4 then (-(2 ^ (w - 1)), 2 ^ (w - 1) - 1) else (0, 2 ^ w - 1)

/-- The value of an element of an integer type code. -/
def intValue (t x : Nat) : Int := if t < 4 then toSigned (typeWidth t) x else (x % 2 ^ typeWidth t : Nat)

end Sys2Proof.Machine
end

