-- ==== Sys2Proof/Config.lean ====
section
/-!
DEFINITION. What one implementation fixes, and the free values: opaque constants with no body, of which nothing can
be proved but what holds of every function of their type.
-/
namespace Sys2Proof.Config

/-- Dies of a package (R15). -/
abbrev dies : Nat := 8
/-- Cores of a die (R15). -/
abbrev coresPerDie : Nat := 128
/-- Cores of the package (R15, R25). -/
abbrev cores : Nat := 1024
/-- Clusters of the package: four cores each (R15). -/
abbrev clusters : Nat := 256
/-- Group slots of a core (R16). -/
abbrev slots : Nat := 16
/-- Vector register words of a core (R119). -/
abbrev regWords : Nat := 65536
/-- Accumulator tiles of a core (R119). -/
abbrev tiles : Nat := 16
/-- Scratchpad granules of a core (R119). -/
abbrev granules : Nat := 32
/-- Bytes of a core's scratchpad (R296). -/
abbrev spadBytes : Nat := 131072
/-- Entries of a group's vector queue (R140). -/
abbrev vqDepth : Nat := 64
/-- Entries of a group's undo log (R143). -/
abbrev undoDepth : Nat := 64
/-- Entries of a group's store buffer (R149). -/
abbrev storeDepth : Nat := 16
/-- Near memory of a die in bytes (R15). -/
abbrev nearBytes : Nat := 2 ^ 31
/-- Far memory in bytes (R15). -/
abbrev farBytes : Nat := 3 * 2 ^ 39
/-- Host-visible work queues (R94). -/
abbrev queues : Nat := 65536

/-- Cycles that a step takes beyond one (log entry 2): unconstrained. -/
opaque freeCycles : Nat → Nat

/-- A choice the manual leaves to the device, drawn fresh (log entry 2): unconstrained. -/
opaque freeChoice : Nat → Nat

/-- The result of an approximation within its bound: op, input bits (R207, log entry 10). -/
opaque approxBits : Nat → BitVec 32 → BitVec 32

/-- A result the manual does not state, by the place that asks and its operands (log entry 16). -/
opaque unstated : Nat → List Nat → Nat

/-- The stepping of the package (R25, log entry 4). -/
opaque stepping : Nat

/-- The root's signature over a message (R454, log entry 14): a key id, the message, the bytes. -/
opaque signature : Nat → List Byte → List Byte

/-- The parts of the certificate chain that R454 does not state (log entry 14): the certificates above the leaf, and the leaf before,
between and behind its part number and stepping. -/
opaque certificateText : Nat → List Byte

/-- A boot stage's image carries a signature of the key that is fused in the root (R453, log entry 14). -/
opaque imageValid : Nat → List Byte → Bool

end Sys2Proof.Config
end

