-- ==== Sys2Proof/Decode.lean ====
section
/-!
DEFINITION. The decoder (R50, R64-R67, 03_opcode_map.md), total on every word, rejecting by name; after it the
encoder, written from the same tables. An instruction of the syntax keeps every bit of its word, so decoding loses
nothing; whether the word is legal is `Instr.check`.
-/
namespace Sys2Proof

/-- Why a word decodes to no instruction: steps 1 and 2 of R67. -/
inductive Reject where
  /-- the primary opcode is reserved (R66), reason 0x01 -/
  | reservedOpcode
  /-- the function value is unassigned for the opcode (R64), reason 0x02 -/
  | unassignedFunction
  deriving DecidableEq, Repr

/-- The ILLEGAL reason of a rejected word (R67). -/
def Reject.reason : Reject → Nat
  | .reservedOpcode => 1
  | .unassignedFunction => 2

/-- The fields of a word of format FS (R50). -/
def FS.ofWord (w : BitVec 64) : FS :=
  ⟨w.extractLsb' 46 6,
   w.extractLsb' 40 6,
   w.extractLsb' 34 6,
   w.extractLsb' 14 20,
   w.extractLsb' 2 12,
   w.extractLsb' 0 2⟩

/-- The fields of a word of format FI (R50). -/
def FI.ofWord (w : BitVec 64) : FI :=
  ⟨w.extractLsb' 46 6,
   w.extractLsb' 40 6,
   w.extractLsb' 8 32,
   w.extractLsb' 2 6,
   w.extractLsb' 0 2⟩

/-- The fields of a word of format FB (R50). -/
def FB.ofWord (w : BitVec 64) : FB :=
  ⟨w.extractLsb' 46 6,
   w.extractLsb' 40 6,
   w.extractLsb' 36 4,
   w.extractLsb' 4 32,
   w.extractLsb' 2 2,
   w.extractLsb' 0 2⟩

/-- The fields of a word of format FV (R50). -/
def FV.ofWord (w : BitVec 64) : FV :=
  ⟨w.extractLsb' 47 5,
   w.extractLsb' 42 5,
   w.extractLsb' 37 5,
   w.extractLsb' 32 5,
   w.extractLsb' 29 3,
   w.extractLsb' 28 1,
   w.extractLsb' 25 3,
   w.extractLsb' 22 3,
   w.extractLsb' 21 1,
   w.extractLsb' 18 3,
   w.extractLsb' 2 16,
   w.extractLsb' 0 2⟩

/-- The fields of a word of format FVS (R50). -/
def FVS.ofWord (w : BitVec 64) : FVS :=
  ⟨w.extractLsb' 47 5,
   w.extractLsb' 42 5,
   w.extractLsb' 36 6,
   w.extractLsb' 32 4,
   w.extractLsb' 29 3,
   w.extractLsb' 28 1,
   w.extractLsb' 25 3,
   w.extractLsb' 22 3,
   w.extractLsb' 21 1,
   w.extractLsb' 18 3,
   w.extractLsb' 2 16,
   w.extractLsb' 0 2⟩

/-- The fields of a word of format FM (R50). -/
def FM.ofWord (w : BitVec 64) : FM :=
  ⟨w.extractLsb' 47 5,
   w.extractLsb' 41 6,
   w.extractLsb' 35 6,
   w.extractLsb' 30 5,
   w.extractLsb' 27 3,
   w.extractLsb' 25 2,
   w.extractLsb' 22 3,
   w.extractLsb' 20 2,
   w.extractLsb' 19 1,
   w.extractLsb' 18 1,
   w.extractLsb' 15 3,
   w.extractLsb' 2 13,
   w.extractLsb' 0 2⟩

/-- The fields of a word of format FX (R50). -/
def FX.ofWord (w : BitVec 64) : FX :=
  ⟨w.extractLsb' 50 2,
   w.extractLsb' 44 6,
   w.extractLsb' 38 6,
   w.extractLsb' 32 6,
   w.extractLsb' 29 3,
   w.extractLsb' 24 5,
   w.extractLsb' 20 4,
   w.extractLsb' 16 4,
   w.extractLsb' 14 2,
   w.extractLsb' 2 12,
   w.extractLsb' 0 2⟩

/-- The fields of a word of format FF (R50). -/
def FF.ofWord (w : BitVec 64) : FF :=
  ⟨w.extractLsb' 40 12,
   w.extractLsb' 34 6,
   w.extractLsb' 28 6,
   w.extractLsb' 22 6,
   w.extractLsb' 17 5,
   w.extractLsb' 13 4,
   w.extractLsb' 12 1,
   w.extractLsb' 2 10,
   w.extractLsb' 0 2⟩

/-- The fields of a word of format FC (R50). -/
def FC.ofWord (w : BitVec 64) : FC :=
  ⟨w.extractLsb' 46 6,
   w.extractLsb' 40 6,
   w.extractLsb' 34 6,
   w.extractLsb' 28 6,
   w.extractLsb' 16 12,
   w.extractLsb' 12 4,
   w.extractLsb' 10 2,
   w.extractLsb' 7 3,
   w.extractLsb' 2 5,
   w.extractLsb' 0 2⟩

/-- The fields of a word of format FO (R50). -/
def FO.ofWord (w : BitVec 64) : FO :=
  ⟨w.extractLsb' 2 50,
   w.extractLsb' 0 2⟩

/-- The instructions of primary opcode `op`, in the order of their FN values (R65); empty for a reserved opcode (R66). -/
noncomputable def opcodeRow (w : BitVec 64) : Nat → List Instr
  | 0x00 => [.add (.ofWord w), .sub (.ofWord w), .mul (.ofWord w), .mulh (.ofWord w), .div (.ofWord w),
      .divu (.ofWord w), .rem (.ofWord w), .remu (.ofWord w), .and (.ofWord w), .or (.ofWord w),
      .xor (.ofWord w), .sll (.ofWord w), .srl (.ofWord w), .sra (.ofWord w), .slt (.ofWord w),
      .sltu (.ofWord w)]
  | 0x01 => [.addImm (.ofWord w), .andImm (.ofWord w), .orImm (.ofWord w), .xorImm (.ofWord w),
      .sllImm (.ofWord w), .srlImm (.ofWord w), .sraImm (.ofWord w), .sltImm (.ofWord w)]
  | 0x02 => [.li (.ofWord w), .lhi (.ofWord w)]
  | 0x03 => [.clz (.ofWord w), .ctz (.ofWord w), .popc (.ofWord w), .bswap (.ofWord w)]
  | 0x04 => [.lea (.ofWord w), .leaImm (.ofWord w)]
  | 0x05 => [.pcaddr (.ofWord w)]
  | 0x06 => [.fadd (.ofWord w), .fsub (.ofWord w), .fmul (.ofWord w), .fdiv (.ofWord w),
      .ffma (.ofWord w), .fsqrt (.ofWord w), .fmin (.ofWord w), .fmax (.ofWord w)]
  | 0x07 => [.feq (.ofWord w), .flt (.ofWord w), .fle (.ofWord w), .fcvti (.ofWord w),
      .ficvt (.ofWord w)]
  | 0x08 => [.vbcast (.ofWord w), .vins (.ofWord w), .mput (.ofWord w)]
  | 0x09 => [.vget (.ofWord w), .mget (.ofWord w)]
  | 0x0A => [.fnarrow (.ofWord w), .fwiden (.ofWord w)]
  | 0x0B => [.nop (.ofWord w)]
  | 0x10 => [.ldI8 (.ofWord w), .ldI16 (.ofWord w), .ldI32 (.ofWord w), .ldI64 (.ofWord w),
      .ldN8 (.ofWord w), .ldN16 (.ofWord w), .ldN32 (.ofWord w)]
  | 0x11 => [.stN8 (.ofWord w), .stN16 (.ofWord w), .stN32 (.ofWord w), .stN64 (.ofWord w)]
  | 0x12 => [.lds (.ofWord w), .sts (.ofWord w)]
  | 0x13 => [.aadd (.ofWord w), .aand (.ofWord w), .aor (.ofWord w), .axor (.ofWord w), .amin (.ofWord w),
      .amax (.ofWord w), .aswap (.ofWord w)]
  | 0x14 => [.cas (.ofWord w)]
  | 0x15 => [.cflush (.ofWord w), .cwb (.ofWord w), .icinv (.ofWord w), .prefetch (.ofWord w)]
  | 0x18 => [.br (.ofWord w)]
  | 0x19 => [.call (.ofWord w)]
  | 0x1A => [.jr (.ofWord w)]
  | 0x1B => [.waitcLd (.ofWord w), .waitcSt (.ofWord w), .waitcSp (.ofWord w), .waitcCp (.ofWord w),
      .waitcMx (.ofWord w), .waitcFb (.ofWord w)]
  | 0x1C => [.yield (.ofWord w)]
  | 0x1D => [.endGroup (.ofWord w)]
  | 0x1E => [.vdrain (.ofWord w)]
  | 0x20 => [.vadd (.ofWord w), .vsub (.ofWord w), .vmul (.ofWord w), .vmin (.ofWord w),
      .vmax (.ofWord w)]
  | 0x21 => [.vand (.ofWord w), .vor (.ofWord w), .vxor (.ofWord w), .vnot (.ofWord w)]
  | 0x22 => [.vsll (.ofWord w), .vsrl (.ofWord w), .vsra (.ofWord w)]
  | 0x23 => [.vaddVs (.ofWord w), .vsubVs (.ofWord w), .vmulVs (.ofWord w), .vminVs (.ofWord w),
      .vmaxVs (.ofWord w), .vandVs (.ofWord w), .vorVs (.ofWord w), .vxorVs (.ofWord w), .vsllVs (.ofWord w),
      .vsrlVs (.ofWord w), .vsraVs (.ofWord w)]
  | 0x24 => [.vdiv (.ofWord w), .vsqrt (.ofWord w), .vabs (.ofWord w), .vneg (.ofWord w)]
  | 0x25 => [.vffma (.ofWord w), .vffms (.ofWord w), .vffnma (.ofWord w), .vffnms (.ofWord w)]
  | 0x26 => [.vmulh (.ofWord w), .vabd (.ofWord w), .vwadd (.ofWord w), .vwmul (.ofWord w)]
  | 0x27 => [.vfexp2 (.ofWord w), .vflog2 (.ofWord w), .vfrcp (.ofWord w), .vfrsq (.ofWord w),
      .vftanh (.ofWord w)]
  | 0x28 => [.vdot4 (.ofWord w), .vfdot2 (.ofWord w), .vfdot4 (.ofWord w)]
  | 0x29 => [.vid (.ofWord w), .viota (.ofWord w)]
  | 0x2A => [.vmerge (.ofWord w), .vmv (.ofWord w)]
  | 0x2B => [.vaddImm (.ofWord w), .vandImm (.ofWord w), .vsllImm (.ofWord w), .vsrlImm (.ofWord w),
      .vsraImm (.ofWord w)]
  | 0x2C => [.vclz (.ofWord w), .vctz (.ofWord w), .vpopc (.ofWord w)]
  | 0x2D => [.vfsgnj (.ofWord w), .vfround (.ofWord w)]
  | 0x30 => [.vcvt (.ofWord w), .vwcvt (.ofWord w), .vncvt (.ofWord w)]
  | 0x31 => [.vqscale (.ofWord w), .vqapply (.ofWord w), .vdqapply (.ofWord w)]
  | 0x32 => [.vcmpeq (.ofWord w), .vcmpne (.ofWord w), .vcmplt (.ofWord w), .vcmple (.ofWord w),
      .vcmpun (.ofWord w)]
  | 0x33 => [.mand (.ofWord w), .mor (.ofWord w), .mxor (.ofWord w), .mandn (.ofWord w),
      .mnot (.ofWord w)]
  | 0x34 => [.msbf (.ofWord w), .msif (.ofWord w), .msof (.ofWord w), .mfirst (.ofWord w),
      .mpopc (.ofWord w)]
  | 0x35 => [.vsetvl (.ofWord w)]
  | 0x36 => [.vbpack (.ofWord w), .vbunpack (.ofWord w)]
  | 0x37 => [.vfclass (.ofWord w)]
  | 0x38 => [.vperm (.ofWord w), .vrev (.ofWord w)]
  | 0x39 => [.vslideup (.ofWord w), .vslidedn (.ofWord w), .vslide1up (.ofWord w),
      .vslide1dn (.ofWord w)]
  | 0x3A => [.vqx (.ofWord w), .vqy (.ofWord w), .vqd (.ofWord w), .vqbc (.ofWord w)]
  | 0x3B => [.vredsum (.ofWord w), .vredmin (.ofWord w), .vredmax (.ofWord w), .vredand (.ofWord w),
      .vredor (.ofWord w), .vredxor (.ofWord w)]
  | 0x3C => [.vsegscanAdd (.ofWord w), .vsegscanMin (.ofWord w), .vsegscanMax (.ofWord w),
      .vsegredAdd (.ofWord w), .vsegredMin (.ofWord w), .vsegredMax (.ofWord w)]
  | 0x3D => [.vcompress (.ofWord w), .vexpand (.ofWord w)]
  | 0x40 => [.vld (.ofWord w), .vst (.ofWord w)]
  | 0x41 => [.vlds (.ofWord w), .vsts (.ofWord w)]
  | 0x42 => [.vldp (.ofWord w), .vstp (.ofWord w)]
  | 0x43 => [.vaadd (.ofWord w), .vafadd (.ofWord w), .vaand (.ofWord w), .vaor (.ofWord w),
      .vaxor (.ofWord w), .vamin (.ofWord w), .vamax (.ofWord w), .vaswap (.ofWord w)]
  | 0x44 => [.vacas (.ofWord w)]
  | 0x45 => [.vprefetch (.ofWord w), .vcflush (.ofWord w), .vcwb (.ofWord w)]
  | 0x48 => [.rld (.ofWord w)]
  | 0x49 => [.rst (.ofWord w)]
  | 0x4A => [.raadd (.ofWord w), .rafadd (.ofWord w), .raor (.ofWord w), .ramin (.ofWord w),
      .ramax (.ofWord w), .raswap (.ofWord w)]
  | 0x4B => [.rcas (.ofWord w)]
  | 0x4C => [.tierq (.ofWord w)]
  | 0x50 => [.map (.ofWord w)]
  | 0x51 => [.zip (.ofWord w)]
  | 0x52 => [.reduce (.ofWord w)]
  | 0x53 => [.scan (.ofWord w), .scanX (.ofWord w)]
  | 0x54 => [.stencil (.ofWord w)]
  | 0x55 => [.gapply (.ofWord w)]
  | 0x58 => [.mxmul (.ofWord w), .mxmulZ (.ofWord w)]
  | 0x59 => [.mxbp (.ofWord w), .mxbpZ (.ofWord w)]
  | 0x5A => [.mxext (.ofWord w)]
  | 0x5B => [.mxmovIn (.ofWord w), .mxmovOut (.ofWord w), .mxclr (.ofWord w)]
  | 0x5C => [.vrank (.ofWord w), .vrankMag (.ofWord w)]
  | 0x5D => [.vrkmerge (.ofWord w), .vrkpack (.ofWord w)]
  | 0x5E => [.rkacc (.ofWord w), .unrank (.ofWord w), .ldattAtt (.ofWord w), .ldattRec (.ofWord w)]
  | 0x60 => [.copy (.ofWord w)]
  | 0x61 => [.tcopy (.ofWord w)]
  | 0x62 => [.coll (.ofWord w)]
  | 0x63 => [.launch (.ofWord w)]
  | 0x64 => [.ctradd (.ofWord w), .ctrwait (.ofWord w), .ctrset (.ofWord w)]
  | 0x65 => [.pmigrate (.ofWord w)]
  | 0x66 => [.ckpt (.ofWord w)]
  | 0x68 => [.fence (.ofWord w)]
  | 0x69 => [.bar (.ofWord w)]
  | 0x6A => [.gbar (.ofWord w)]
  | 0x6B => [.fbar (.ofWord w)]
  | 0x6C => [.mwait (.ofWord w)]
  | 0x70 => [.trap (.ofWord w)]
  | 0x71 => [.eret (.ofWord w)]
  | 0x72 => [.getsr (.ofWord w), .setsr (.ofWord w)]
  | 0x73 => [.getcap (.ofWord w)]
  | 0x74 => [.moncfg (.ofWord w), .monread (.ofWord w)]
  | 0x75 => [.lexport (.ofWord w), .lmap (.ofWord w), .lreclaim (.ofWord w), .lack (.ofWord w)]
  | 0x76 => [.ctxsave (.ofWord w), .ctxload (.ofWord w), .scrub (.ofWord w)]
  | _ => []

/-- The primary opcode of a word: bits [63:57] (R50). -/
def opOf (w : BitVec 64) : Nat := (w.extractLsb' 57 7).toNat
/-- The function value of a word: bits [56:52] (R50). -/
def fnOf (w : BitVec 64) : Nat := (w.extractLsb' 52 5).toNat

/-- Decoding one instruction word: OP and FN together select exactly one instruction and its format (R64). -/
noncomputable def decodeWord (w : BitVec 64) : Except Reject Instr :=
  match opcodeRow w (opOf w) with
  | [] => .error .reservedOpcode
  | i :: row => match (i :: row)[fnOf w]? with
    | none => .error .unassignedFunction
    | some j => .ok j

/-- A word that decodes and passes every decode check that needs no group (R67). -/
def wellFormed (i : Instr) : Bool := i.check.reasons.isEmpty

/-- The instruction the decoder reads from the low 64 bits of `w`; none where it refuses the word, by its opcode, its
function value or its fields (R67). Every instruction of this hardware is one dword. -/
noncomputable def decodeTableWord (_nbits w : Nat) : Option Instr :=
  match decodeWord (BitVec.ofNat 64 w) with
  | .ok i => if wellFormed i then some i else none
  | .error _ => none

/-- The word of opcode `op` and function `fn` with the fields of format FS (R50). -/
def FS.toWord (op : BitVec 7) (fn : BitVec 5) (f : FS) : BitVec 64 :=
  op ++ fn ++ f.sd ++ f.sa ++ f.sb ++ f.imm ++ f.ext ++ f.cf

/-- The word of opcode `op` and function `fn` with the fields of format FI (R50). -/
def FI.toWord (op : BitVec 7) (fn : BitVec 5) (f : FI) : BitVec 64 :=
  op ++ fn ++ f.sd ++ f.sa ++ f.imm ++ f.ext ++ f.cf

/-- The word of opcode `op` and function `fn` with the fields of format FB (R50). -/
def FB.toWord (op : BitVec 7) (fn : BitVec 5) (f : FB) : BitVec 64 :=
  op ++ fn ++ f.sa ++ f.sb ++ f.cond ++ f.off ++ f.hint ++ f.cf

/-- The word of opcode `op` and function `fn` with the fields of format FV (R50). -/
def FV.toWord (op : BitVec 7) (fn : BitVec 5) (f : FV) : BitVec 64 :=
  op ++ fn ++ f.vd ++ f.va ++ f.vb ++ f.vc ++ f.mreg ++ f.xm ++ f.xmd ++ f.rm ++ f.sat ++ f.ew ++ f.imm ++ f.cf

/-- The word of opcode `op` and function `fn` with the fields of format FVS (R50). -/
def FVS.toWord (op : BitVec 7) (fn : BitVec 5) (f : FVS) : BitVec 64 :=
  op ++ fn ++ f.vd ++ f.va ++ f.sb ++ f.zero ++ f.mreg ++ f.xm ++ f.xmd ++ f.rm ++ f.sat ++ f.ew ++ f.imm ++ f.cf

/-- The word of opcode `op` and function `fn` with the fields of format FM (R50). -/
def FM.toWord (op : BitVec 7) (fn : BitVec 5) (f : FM) : BitVec 64 :=
  op ++ fn ++ f.vd ++ f.sa ++ f.sb ++ f.vi ++ f.mreg ++ f.ord ++ f.scope ++ f.am ++ f.fof ++ f.na ++ f.ew ++ f.imm ++ f.cf

/-- The word of opcode `op` and function `fn` with the fields of format FX (R50). -/
def FX.toWord (op : BitVec 7) (fn : BitVec 5) (f : FX) : BitVec 64 :=
  op ++ fn ++ f.acc ++ f.sa ++ f.sb ++ f.sc ++ f.mreg ++ f.shape ++ f.afmt ++ f.bfmt ++ f.spar ++ f.ext ++ f.cf

/-- The word of opcode `op` and function `fn` with the fields of format FF (R50). -/
def FF.toWord (op : BitVec 7) (fn : BitVec 5) (f : FF) : BitVec 64 :=
  op ++ fn ++ f.lbid ++ f.sa ++ f.sb ++ f.sc ++ f.vd ++ f.attr ++ f.nest ++ f.ext ++ f.cf

/-- The word of opcode `op` and function `fn` with the fields of format FC (R50). -/
def FC.toWord (op : BitVec 7) (fn : BitVec 5) (f : FC) : BitVec 64 :=
  op ++ fn ++ f.sa ++ f.sb ++ f.sc ++ f.sd ++ f.tcid ++ f.q ++ f.ord ++ f.scope ++ f.ext ++ f.cf

/-- The word of opcode `op` and function `fn` with the fields of format FO (R50). -/
def FO.toWord (op : BitVec 7) (fn : BitVec 5) (f : FO) : BitVec 64 :=
  op ++ fn ++ f.zero ++ f.cf

/-- The word of an instruction (R65); an event has none. -/
def Instr.encode : Instr → Option (BitVec 64)
  | .add f => some (f.toWord 0x00 0)
  | .sub f => some (f.toWord 0x00 1)
  | .mul f => some (f.toWord 0x00 2)
  | .mulh f => some (f.toWord 0x00 3)
  | .div f => some (f.toWord 0x00 4)
  | .divu f => some (f.toWord 0x00 5)
  | .rem f => some (f.toWord 0x00 6)
  | .remu f => some (f.toWord 0x00 7)
  | .and f => some (f.toWord 0x00 8)
  | .or f => some (f.toWord 0x00 9)
  | .xor f => some (f.toWord 0x00 10)
  | .sll f => some (f.toWord 0x00 11)
  | .srl f => some (f.toWord 0x00 12)
  | .sra f => some (f.toWord 0x00 13)
  | .slt f => some (f.toWord 0x00 14)
  | .sltu f => some (f.toWord 0x00 15)
  | .addImm f => some (f.toWord 0x01 0)
  | .andImm f => some (f.toWord 0x01 1)
  | .orImm f => some (f.toWord 0x01 2)
  | .xorImm f => some (f.toWord 0x01 3)
  | .sllImm f => some (f.toWord 0x01 4)
  | .srlImm f => some (f.toWord 0x01 5)
  | .sraImm f => some (f.toWord 0x01 6)
  | .sltImm f => some (f.toWord 0x01 7)
  | .li f => some (f.toWord 0x02 0)
  | .lhi f => some (f.toWord 0x02 1)
  | .clz f => some (f.toWord 0x03 0)
  | .ctz f => some (f.toWord 0x03 1)
  | .popc f => some (f.toWord 0x03 2)
  | .bswap f => some (f.toWord 0x03 3)
  | .lea f => some (f.toWord 0x04 0)
  | .leaImm f => some (f.toWord 0x04 1)
  | .pcaddr f => some (f.toWord 0x05 0)
  | .fadd f => some (f.toWord 0x06 0)
  | .fsub f => some (f.toWord 0x06 1)
  | .fmul f => some (f.toWord 0x06 2)
  | .fdiv f => some (f.toWord 0x06 3)
  | .ffma f => some (f.toWord 0x06 4)
  | .fsqrt f => some (f.toWord 0x06 5)
  | .fmin f => some (f.toWord 0x06 6)
  | .fmax f => some (f.toWord 0x06 7)
  | .feq f => some (f.toWord 0x07 0)
  | .flt f => some (f.toWord 0x07 1)
  | .fle f => some (f.toWord 0x07 2)
  | .fcvti f => some (f.toWord 0x07 3)
  | .ficvt f => some (f.toWord 0x07 4)
  | .fnarrow f => some (f.toWord 0x0A 0)
  | .fwiden f => some (f.toWord 0x0A 1)
  | .nop f => some (f.toWord 0x0B 0)
  | .vbcast f => some (f.toWord 0x08 0)
  | .vins f => some (f.toWord 0x08 1)
  | .mput f => some (f.toWord 0x08 2)
  | .vget f => some (f.toWord 0x09 0)
  | .mget f => some (f.toWord 0x09 1)
  | .ldI8 f => some (f.toWord 0x10 0)
  | .ldI16 f => some (f.toWord 0x10 1)
  | .ldI32 f => some (f.toWord 0x10 2)
  | .ldI64 f => some (f.toWord 0x10 3)
  | .ldN8 f => some (f.toWord 0x10 4)
  | .ldN16 f => some (f.toWord 0x10 5)
  | .ldN32 f => some (f.toWord 0x10 6)
  | .stN8 f => some (f.toWord 0x11 0)
  | .stN16 f => some (f.toWord 0x11 1)
  | .stN32 f => some (f.toWord 0x11 2)
  | .stN64 f => some (f.toWord 0x11 3)
  | .lds f => some (f.toWord 0x12 0)
  | .sts f => some (f.toWord 0x12 1)
  | .aadd f => some (f.toWord 0x13 0)
  | .aand f => some (f.toWord 0x13 1)
  | .aor f => some (f.toWord 0x13 2)
  | .axor f => some (f.toWord 0x13 3)
  | .amin f => some (f.toWord 0x13 4)
  | .amax f => some (f.toWord 0x13 5)
  | .aswap f => some (f.toWord 0x13 6)
  | .cas f => some (f.toWord 0x14 0)
  | .cflush f => some (f.toWord 0x15 0)
  | .cwb f => some (f.toWord 0x15 1)
  | .icinv f => some (f.toWord 0x15 2)
  | .prefetch f => some (f.toWord 0x15 3)
  | .br f => some (f.toWord 0x18 0)
  | .call f => some (f.toWord 0x19 0)
  | .jr f => some (f.toWord 0x1A 0)
  | .waitcLd f => some (f.toWord 0x1B 0)
  | .waitcSt f => some (f.toWord 0x1B 1)
  | .waitcSp f => some (f.toWord 0x1B 2)
  | .waitcCp f => some (f.toWord 0x1B 3)
  | .waitcMx f => some (f.toWord 0x1B 4)
  | .waitcFb f => some (f.toWord 0x1B 5)
  | .yield f => some (f.toWord 0x1C 0)
  | .endGroup f => some (f.toWord 0x1D 0)
  | .vdrain f => some (f.toWord 0x1E 0)
  | .vadd f => some (f.toWord 0x20 0)
  | .vsub f => some (f.toWord 0x20 1)
  | .vmul f => some (f.toWord 0x20 2)
  | .vmin f => some (f.toWord 0x20 3)
  | .vmax f => some (f.toWord 0x20 4)
  | .vand f => some (f.toWord 0x21 0)
  | .vor f => some (f.toWord 0x21 1)
  | .vxor f => some (f.toWord 0x21 2)
  | .vnot f => some (f.toWord 0x21 3)
  | .vsll f => some (f.toWord 0x22 0)
  | .vsrl f => some (f.toWord 0x22 1)
  | .vsra f => some (f.toWord 0x22 2)
  | .vaddVs f => some (f.toWord 0x23 0)
  | .vsubVs f => some (f.toWord 0x23 1)
  | .vmulVs f => some (f.toWord 0x23 2)
  | .vminVs f => some (f.toWord 0x23 3)
  | .vmaxVs f => some (f.toWord 0x23 4)
  | .vandVs f => some (f.toWord 0x23 5)
  | .vorVs f => some (f.toWord 0x23 6)
  | .vxorVs f => some (f.toWord 0x23 7)
  | .vsllVs f => some (f.toWord 0x23 8)
  | .vsrlVs f => some (f.toWord 0x23 9)
  | .vsraVs f => some (f.toWord 0x23 10)
  | .vdiv f => some (f.toWord 0x24 0)
  | .vsqrt f => some (f.toWord 0x24 1)
  | .vabs f => some (f.toWord 0x24 2)
  | .vneg f => some (f.toWord 0x24 3)
  | .vffma f => some (f.toWord 0x25 0)
  | .vffms f => some (f.toWord 0x25 1)
  | .vffnma f => some (f.toWord 0x25 2)
  | .vffnms f => some (f.toWord 0x25 3)
  | .vmulh f => some (f.toWord 0x26 0)
  | .vabd f => some (f.toWord 0x26 1)
  | .vwadd f => some (f.toWord 0x26 2)
  | .vwmul f => some (f.toWord 0x26 3)
  | .vfexp2 f => some (f.toWord 0x27 0)
  | .vflog2 f => some (f.toWord 0x27 1)
  | .vfrcp f => some (f.toWord 0x27 2)
  | .vfrsq f => some (f.toWord 0x27 3)
  | .vftanh f => some (f.toWord 0x27 4)
  | .vdot4 f => some (f.toWord 0x28 0)
  | .vfdot2 f => some (f.toWord 0x28 1)
  | .vfdot4 f => some (f.toWord 0x28 2)
  | .vid f => some (f.toWord 0x29 0)
  | .viota f => some (f.toWord 0x29 1)
  | .vmerge f => some (f.toWord 0x2A 0)
  | .vmv f => some (f.toWord 0x2A 1)
  | .vaddImm f => some (f.toWord 0x2B 0)
  | .vandImm f => some (f.toWord 0x2B 1)
  | .vsllImm f => some (f.toWord 0x2B 2)
  | .vsrlImm f => some (f.toWord 0x2B 3)
  | .vsraImm f => some (f.toWord 0x2B 4)
  | .vclz f => some (f.toWord 0x2C 0)
  | .vctz f => some (f.toWord 0x2C 1)
  | .vpopc f => some (f.toWord 0x2C 2)
  | .vfsgnj f => some (f.toWord 0x2D 0)
  | .vfround f => some (f.toWord 0x2D 1)
  | .vcvt f => some (f.toWord 0x30 0)
  | .vwcvt f => some (f.toWord 0x30 1)
  | .vncvt f => some (f.toWord 0x30 2)
  | .vqscale f => some (f.toWord 0x31 0)
  | .vqapply f => some (f.toWord 0x31 1)
  | .vdqapply f => some (f.toWord 0x31 2)
  | .vcmpeq f => some (f.toWord 0x32 0)
  | .vcmpne f => some (f.toWord 0x32 1)
  | .vcmplt f => some (f.toWord 0x32 2)
  | .vcmple f => some (f.toWord 0x32 3)
  | .vcmpun f => some (f.toWord 0x32 4)
  | .mand f => some (f.toWord 0x33 0)
  | .mor f => some (f.toWord 0x33 1)
  | .mxor f => some (f.toWord 0x33 2)
  | .mandn f => some (f.toWord 0x33 3)
  | .mnot f => some (f.toWord 0x33 4)
  | .msbf f => some (f.toWord 0x34 0)
  | .msif f => some (f.toWord 0x34 1)
  | .msof f => some (f.toWord 0x34 2)
  | .mfirst f => some (f.toWord 0x34 3)
  | .mpopc f => some (f.toWord 0x34 4)
  | .vsetvl f => some (f.toWord 0x35 0)
  | .vbpack f => some (f.toWord 0x36 0)
  | .vbunpack f => some (f.toWord 0x36 1)
  | .vfclass f => some (f.toWord 0x37 0)
  | .vperm f => some (f.toWord 0x38 0)
  | .vrev f => some (f.toWord 0x38 1)
  | .vslideup f => some (f.toWord 0x39 0)
  | .vslidedn f => some (f.toWord 0x39 1)
  | .vslide1up f => some (f.toWord 0x39 2)
  | .vslide1dn f => some (f.toWord 0x39 3)
  | .vqx f => some (f.toWord 0x3A 0)
  | .vqy f => some (f.toWord 0x3A 1)
  | .vqd f => some (f.toWord 0x3A 2)
  | .vqbc f => some (f.toWord 0x3A 3)
  | .vredsum f => some (f.toWord 0x3B 0)
  | .vredmin f => some (f.toWord 0x3B 1)
  | .vredmax f => some (f.toWord 0x3B 2)
  | .vredand f => some (f.toWord 0x3B 3)
  | .vredor f => some (f.toWord 0x3B 4)
  | .vredxor f => some (f.toWord 0x3B 5)
  | .vsegscanAdd f => some (f.toWord 0x3C 0)
  | .vsegscanMin f => some (f.toWord 0x3C 1)
  | .vsegscanMax f => some (f.toWord 0x3C 2)
  | .vsegredAdd f => some (f.toWord 0x3C 3)
  | .vsegredMin f => some (f.toWord 0x3C 4)
  | .vsegredMax f => some (f.toWord 0x3C 5)
  | .vcompress f => some (f.toWord 0x3D 0)
  | .vexpand f => some (f.toWord 0x3D 1)
  | .vld f => some (f.toWord 0x40 0)
  | .vst f => some (f.toWord 0x40 1)
  | .vlds f => some (f.toWord 0x41 0)
  | .vsts f => some (f.toWord 0x41 1)
  | .vldp f => some (f.toWord 0x42 0)
  | .vstp f => some (f.toWord 0x42 1)
  | .vaadd f => some (f.toWord 0x43 0)
  | .vafadd f => some (f.toWord 0x43 1)
  | .vaand f => some (f.toWord 0x43 2)
  | .vaor f => some (f.toWord 0x43 3)
  | .vaxor f => some (f.toWord 0x43 4)
  | .vamin f => some (f.toWord 0x43 5)
  | .vamax f => some (f.toWord 0x43 6)
  | .vaswap f => some (f.toWord 0x43 7)
  | .vacas f => some (f.toWord 0x44 0)
  | .vprefetch f => some (f.toWord 0x45 0)
  | .vcflush f => some (f.toWord 0x45 1)
  | .vcwb f => some (f.toWord 0x45 2)
  | .rld f => some (f.toWord 0x48 0)
  | .rst f => some (f.toWord 0x49 0)
  | .raadd f => some (f.toWord 0x4A 0)
  | .rafadd f => some (f.toWord 0x4A 1)
  | .raor f => some (f.toWord 0x4A 2)
  | .ramin f => some (f.toWord 0x4A 3)
  | .ramax f => some (f.toWord 0x4A 4)
  | .raswap f => some (f.toWord 0x4A 5)
  | .rcas f => some (f.toWord 0x4B 0)
  | .tierq f => some (f.toWord 0x4C 0)
  | .map f => some (f.toWord 0x50 0)
  | .zip f => some (f.toWord 0x51 0)
  | .reduce f => some (f.toWord 0x52 0)
  | .scan f => some (f.toWord 0x53 0)
  | .scanX f => some (f.toWord 0x53 1)
  | .stencil f => some (f.toWord 0x54 0)
  | .gapply f => some (f.toWord 0x55 0)
  | .mxmul f => some (f.toWord 0x58 0)
  | .mxmulZ f => some (f.toWord 0x58 1)
  | .mxbp f => some (f.toWord 0x59 0)
  | .mxbpZ f => some (f.toWord 0x59 1)
  | .mxext f => some (f.toWord 0x5A 0)
  | .mxmovIn f => some (f.toWord 0x5B 0)
  | .mxmovOut f => some (f.toWord 0x5B 1)
  | .mxclr f => some (f.toWord 0x5B 2)
  | .vrank f => some (f.toWord 0x5C 0)
  | .vrankMag f => some (f.toWord 0x5C 1)
  | .vrkmerge f => some (f.toWord 0x5D 0)
  | .vrkpack f => some (f.toWord 0x5D 1)
  | .rkacc f => some (f.toWord 0x5E 0)
  | .unrank f => some (f.toWord 0x5E 1)
  | .ldattAtt f => some (f.toWord 0x5E 2)
  | .ldattRec f => some (f.toWord 0x5E 3)
  | .copy f => some (f.toWord 0x60 0)
  | .tcopy f => some (f.toWord 0x61 0)
  | .coll f => some (f.toWord 0x62 0)
  | .launch f => some (f.toWord 0x63 0)
  | .ctradd f => some (f.toWord 0x64 0)
  | .ctrwait f => some (f.toWord 0x64 1)
  | .ctrset f => some (f.toWord 0x64 2)
  | .pmigrate f => some (f.toWord 0x65 0)
  | .ckpt f => some (f.toWord 0x66 0)
  | .fence f => some (f.toWord 0x68 0)
  | .bar f => some (f.toWord 0x69 0)
  | .gbar f => some (f.toWord 0x6A 0)
  | .fbar f => some (f.toWord 0x6B 0)
  | .mwait f => some (f.toWord 0x6C 0)
  | .trap f => some (f.toWord 0x70 0)
  | .eret f => some (f.toWord 0x71 0)
  | .getsr f => some (f.toWord 0x72 0)
  | .setsr f => some (f.toWord 0x72 1)
  | .getcap f => some (f.toWord 0x73 0)
  | .moncfg f => some (f.toWord 0x74 0)
  | .monread f => some (f.toWord 0x74 1)
  | .lexport f => some (f.toWord 0x75 0)
  | .lmap f => some (f.toWord 0x75 1)
  | .lreclaim f => some (f.toWord 0x75 2)
  | .lack f => some (f.toWord 0x75 3)
  | .ctxsave f => some (f.toWord 0x76 0)
  | .ctxload f => some (f.toWord 0x76 1)
  | .scrub f => some (f.toWord 0x76 2)
  | _ => none

end Sys2Proof
end

