-- ==== Sys2Proof/Machine/Maps.lean ====
section
/-!
DEFINITION. Sparse plain data: lists of (key, value) pairs with strictly rising keys.
`Assoc` holds values that may be absent; `FMap` holds a total function that is a default value almost everywhere, and
lists no entry equal to the default, so that equal contents are equal lists. Memory is the `FMap` of bytes.
-/
namespace Sys2Proof.Machine

/-- Finitely many keys with a value each, the keys strictly rising. -/
abbrev Assoc (α : Type) := List (Nat × α)

/-- The value at key `k`, if there is one. -/
def Assoc.find? {α : Type} : Assoc α → Nat → Option α
  | [], _ => none
  | (k', v) :: t, k => if k = k' then some v else Assoc.find? t k

/-- `m` with `v` at key `k`. -/
def Assoc.put {α : Type} : Assoc α → Nat → α → Assoc α
  | [], k, v => [(k, v)]
  | (k', v') :: t, k, v =>
    if k = k' then (k, v) :: t
    else if k < k' then (k, v) :: (k', v') :: t
    else (k', v') :: Assoc.put t k v

/-- `m` without key `k`. -/
def Assoc.del {α : Type} : Assoc α → Nat → Assoc α
  | [], _ => []
  | (k', v') :: t, k => if k = k' then Assoc.del t k else (k', v') :: Assoc.del t k

/-- `m` with the value at `k`, if any, changed by `f`. -/
def Assoc.update {α : Type} (m : Assoc α) (k : Nat) (f : α → α) : Assoc α :=
  match Assoc.find? m k with
  | some v => Assoc.put m k (f v)
  | none => m

/-- The keys, in rising order. -/
def Assoc.keys {α : Type} (m : Assoc α) : List Nat := List.map Prod.fst m

/-- Keys strictly rise, all of them above `b`. -/
def Assoc.wfFrom {α : Type} : Option Nat → Assoc α → Bool
  | _, [] => true
  | none, (k, _) :: t => Assoc.wfFrom (some k) t
  | some b, (k, _) :: t => decide (b < k) && Assoc.wfFrom (some k) t

/-- The canonical form: keys strictly rise. -/
def Assoc.wf {α : Type} (m : Assoc α) : Bool := Assoc.wfFrom none m

/-- A total function that is a default value but for the keys listed. -/
abbrev FMap (α : Type) := List (Nat × α)

/-- The value at key `k`; `d` where no entry is listed. -/
def FMap.get {α : Type} (d : α) (m : FMap α) (k : Nat) : α := (Assoc.find? m k).getD d

/-- `m` with `v` at key `k`; the default is not listed. -/
def FMap.set {α : Type} [DecidableEq α] (d : α) (m : FMap α) (k : Nat) (v : α) : FMap α :=
  if v = d then Assoc.del m k else Assoc.put m k v

/-- The canonical form: keys strictly rise and no entry is the default. -/
def FMap.wf {α : Type} [DecidableEq α] (d : α) (m : FMap α) : Bool :=
  Assoc.wf m && m.all (fun p => decide (p.2 ≠ d))

/-- Memory: bytes by address (R9, R477), `Host.Cell` by `Host.Cell`. -/
abbrev Memory := List Host.Cell

/-- What an address that memory does not list reads as (log entry 3: DESIGN CHOICE). -/
def Memory.unlisted : Byte := 0x00

/-- The byte at an address. -/
def Memory.read (m : Memory) (a : Nat) : Byte := FMap.get Memory.unlisted m a

/-- Memory with the byte at `a` set to `b`. -/
def Memory.write (m : Memory) (a : Nat) (b : Byte) : Memory := FMap.set Memory.unlisted m a b

/-- The canonical form of memory. -/
def Memory.wf (m : Memory) : Bool := FMap.wf Memory.unlisted m

/-- The `n` bytes from `a` as a number, little-endian (R9). -/
def Memory.readNat (m : Memory) (a : Nat) : Nat → Nat
  | 0 => 0
  | n + 1 => (Memory.read m a).toNat + 256 * Memory.readNat m (a + 1) n

/-- Memory with the low `n` bytes of `v` written from `a`, little-endian (R9). -/
def Memory.writeNat (m : Memory) (a : Nat) : Nat → Nat → Memory
  | 0, _ => m
  | n + 1, v => Memory.writeNat (Memory.write m a (BitVec.ofNat 8 v)) (a + 1) n (v / 256)

/-- `m` with the bytes of a list written from `a`. -/
def Memory.writeBytes (m : Memory) (a : Nat) : List Byte → Memory
  | [] => m
  | b :: t => Memory.writeBytes (Memory.write m a b) (a + 1) t

/-- Memory with `n` bytes from an address zero. -/
def Memory.clear (m : Memory) (a n : Nat) : Memory := m.filter (fun p => decide (p.1 < a) || decide (a + n ≤ p.1))

/-- The `n` bytes from `a`. -/
def Memory.readBytes (m : Memory) (a : Nat) : Nat → List Byte
  | 0 => []
  | n + 1 => Memory.read m a :: Memory.readBytes m (a + 1) n

/-- The numbers from `a` on, `n` of them: the manual's `for e in a .. a+n-1`. -/
def upFrom (a : Nat) : Nat → List Nat
  | 0 => []
  | n + 1 => a :: upFrom (a + 1) n

/-- The numbers 0 .. n-1. -/
def upTo (n : Nat) : List Nat := upFrom 0 n

end Sys2Proof.Machine
end

