-- ==== Sys2Proof/Machine/Group.lean ====
section
/-!
DEFINITION. The context of one group (R32, R39, R431) and what its control thread and vector queue hold (R137-R151),
as plain data.
-/
namespace Sys2Proof.Machine

/-- Privilege levels, least first (R1). -/
inductive Level where
  | user | supervisor | machine
  deriving DecidableEq, Repr

/-- The level as a number: user 0, supervisor 1, machine 2 (PLEV of R417). -/
def Level.num : Level → Nat
  | .user => 0
  | .supervisor => 1
  | .machine => 2

/-- The level with a given PLEV (R417, R434). -/
def Level.ofNum : Nat → Level
  | 0 => .user
  | 1 => .supervisor
  | _ => .machine

/-- The six in-flight paths (R150). -/
inductive Path where
  | ld | st | sp | cp | mx | fb
  deriving DecidableEq, Repr

/-- The kinds of access that rights are checked for (R302, R415). -/
inductive AccessKind where
  | read | write | atomic | fetch
  /-- a cache operation: RD or WR is enough (R164, R340) -/
  | cache
  deriving DecidableEq, Repr

/-- What a trap carries into the trap registers (R415, R417). -/
structure TrapInfo where
  cause : Nat
  detail : Nat := 0
  addr : W64 := 0
  elem : Nat := 0
  lbid : Nat := 0
  deriving DecidableEq, Repr

/-- A leaf as a walk found it. -/
structure Leaf where
  /-- device physical address of the entry; none for an ATS result -/
  addr : Option Nat
  d0 : W64
  d1 : W64
  level : Nat
  deriving DecidableEq, Repr

/-- Where a translated address lies: memory named by a device physical address (R477), a page in transit with its
migration record (R315), memory leased from a peer (T3, R300), or a peer's scratchpad (R298). -/
inductive Target where
  | phys (pa : Nat)
  | transit (record offset : Nat)
  | leased (lease offset : Nat)
  /-- a peer's scratchpad, by the index word (R298) -/
  | peer (word : Nat)
  /-- a byte key of scratchpad storage, for a form's stream (R228) -/
  | spad (key : Nat)
  deriving DecidableEq, Repr

/-- One translated access of `size` bytes for element `elem` (R306). -/
structure Access where
  elem : Nat
  size : Nat
  va : W64
  target : Target
  deriving DecidableEq, Repr

/-- One entry of the vector queue (R140): the word, the scalar values it read at issue (R201, R227), the flags its CF
names (R48) and the path it raised (R150). `inner` is the second word of a nested pair (R238). -/
structure VEntry where
  id : Nat
  pc : W64
  hdr : W64
  instr : Instr
  ops : List W64 := []
  flags : List Nat := []
  path : Option Path := none
  inner : Option (Instr × List W64) := none
  /-- words that raise CP issued before it (R240) -/
  cps : Nat := 0
  /-- the accesses found by the probe (R306), once it has been made -/
  probe : Option (List Access) := none
  /-- the trap found by a check or the probe -/
  trap : Option TrapInfo := none
  /-- rank entries that the probe of an `rkacc` has read: row, place in its list, entry (R289) -/
  reads : List (Nat × Nat × Nat) := []
  /-- the pages that this probe has translated, each by an address in it and its leaf (R306) -/
  seen : List (W64 × Leaf) := []
  deriving DecidableEq, Repr

/-- What a committed instruction still has to do. -/
inductive Phase where
  /-- waits for the vector unit -/
  | ready
  /-- its accesses are under way -/
  | accesses
  /-- a reduction computing its scalar -/
  | reducing
  /-- a form whose last writes are under way (R246) -/
  | formWrites
  /-- a matrix request in the reservation table, or its pass (R261) -/
  | matrix
  /-- a post waiting for the copy engine (R346) -/
  | post
  /-- a collective waiting for the walker -/
  | collective
  /-- waits for the responses of its remote requests (R356) -/
  | remote
  deriving DecidableEq, Repr

/-- A committed vector-side instruction that has not completed (R141). -/
structure Flight where
  entry : VEntry
  phase : Phase := .ready
  /-- accesses not yet performed -/
  todo : List Access := []
  /-- values of the elements taken at vector issue: element, stored value, operand or expected value, and new value -/
  vals : List (Nat × Nat × Nat) := []
  /-- element and value pairs for the register, not yet written there -/
  got : List (Nat × Nat) := []
  /-- failed elements: element, reason and target device (R330, R360) -/
  failed : List (Nat × Nat × Nat) := []
  /-- (destination device, sequence number) of requests not answered -/
  waits : List (Nat × Nat) := []
  /-- element width in bits, where the instruction has one -/
  width : Nat := 0
  /-- vector registers still to be written: first and how many -/
  regs : List (Nat × Nat) := []
  /-- a fault-only-first load that has been cut short (R331) -/
  trimmed : Bool := false
  /-- number of the form whose last writes these are -/
  form : Nat := 0
  deriving DecidableEq, Repr

/-- What the undo log records (R143): the old value of a register, XFLAGS bits that a scalar instruction set, or the old
copy of VCONF.DRM. -/
inductive Undo where
  | reg (n : Nat) (old : W64)
  | flags (bits : Nat)
  | drm (old : Nat)
  deriving DecidableEq, Repr

/-- A buffered action of the store buffer (R149). -/
inductive Buffered where
  | store (acc : Access) (value : Nat)
  /-- a store to the group's scratchpad at an offset of the core's -/
  | scratch (off size value : Nat)
  /-- `cflush` and `cwb` -/
  | flush (acc : Access)
  /-- `icinv` -/
  | invalidate
  deriving DecidableEq, Repr

/-- An entry of the store buffer: performed once no vector-queue entry below `stamp` is left (R149). -/
structure StoreEntry where
  id : Nat
  stamp : Nat
  pc : W64
  hdr : W64
  act : Buffered
  waits : List (Nat × Nat) := []
  /-- nothing younger issues until this completes (R142) -/
  block : Bool := false
  deriving DecidableEq, Repr

/-- A scalar load whose destination is pending (R147), with the generation tag of its issue (R427). -/
structure Load where
  id : Nat
  stamp : Nat
  pc : W64
  hdr : W64
  sd : Nat
  gen : Nat
  value : Option W64
  waits : List (Nat × Nat) := []
  /-- width and signedness of the value that a remote answer brings -/
  bits : Nat := 64
  signed : Bool := false
  /-- nothing younger issues until this completes (R142) -/
  block : Bool := false
  /-- the access of a load that has no value yet: asked of a lender, or left to be performed at its return (R382) -/
  acc : Option Access := none
  deriving DecidableEq, Repr

/-- Bytes that a scalar load read while older vector-side words may still read them (R148, R380): the load's number, the space
(0 global, 1 scratchpad, else a lease), the place, the size, and the aligned eight bytes that hold them as they were then. -/
structure ReadAhead where
  id : Nat
  space : Nat
  place : Nat
  size : Nat
  value : Nat
  deriving DecidableEq, Repr

/-- An instruction counted on an in-flight path, and whether it has returned (R151). -/
structure Counted where
  path : Path
  id : Nat
  returned : Bool := false
  deriving DecidableEq, Repr

/-- Whether the control thread runs (R132, R418, R427). -/
inductive RunState where
  | running
  /-- parked with a resume token; `none` while its record waits to be posted (R418, R421) -/
  | parked (token : Nat)
  /-- halted for a save (R427) -/
  | halted
  /-- terminated: its committed work drains, then its task retires without `end` (R424) -/
  | terminated
  /-- `end` has completed; the task retires (R441) -/
  | ended
  deriving DecidableEq, Repr

/-- A lane word of a lambda block (R84). -/
structure LaneWord where
  lop : Nat
  dst : Nat
  a : Nat
  b : Nat
  c : Nat
  imm : Nat
  deriving DecidableEq, Repr

/-- A validated lambda block (R82, R83). -/
structure Block where
  nin : Nat
  nout : Nat
  ntmp : Nat
  /-- declared attributes: bit 0 ASSOC, 1 COMM, 2 IDENT, 3 IDEM, as the ATTR field orders them -/
  attrs : Nat
  pair : Bool
  ident : Nat
  words : List LaneWord
  deriving DecidableEq, Repr

/-- Where an element of a form's stream lies (R228). -/
inductive Loc where
  /-- global memory or scratchpad -/
  | mem (acc : Access)
  /-- the bytes of a feed copy's element that is not aligned to its size, one by one -/
  | bytes (accs : List Access)
  /-- bytes of the register string, from its first register's byte -/
  | reg (byte size : Nat)
  /-- a position outside the stream, which reads as zero (R235) -/
  | zero
  deriving DecidableEq, Repr

/-- A step of an element group as the probe planned it (R239). -/
inductive FormStep where
  /-- element `i`: what it reads, and where its result goes -/
  | elem (i : Nat) (reads : List Loc) (dest : Option Loc)
  /-- row `j` of a pair begins, with its length (R238) -/
  | openRow (j len take : Nat)
  /-- row `j` of a pair ends, with its length and outer destination -/
  | closeRow (j len : Nat) (dest : Option Loc)
  deriving DecidableEq, Repr

/-- A feed copy that a form consumes (R232, R240, R242). -/
structure Feed where
  /-- number of the copy's word -/
  id : Nat
  queue : Nat
  base : W64
  cpmark : Nat
  /-- cause of a copy that failed, how many bytes it wrote in the order of its loop, and which beyond them -/
  failed : Option (Nat × Nat × List Nat) := none
  /-- its remaining bytes are read at FEEDBASE (R241, R242) -/
  resumed : Bool := false
  deriving DecidableEq, Repr

/-- A read of a form made before its element group commits (R239): which element, which of its reads, where, and the value. -/
structure EarlyRead where
  elem : Nat
  nth : Nat
  loc : Loc
  value : Nat
  deriving DecidableEq, Repr

/-- What a form wrote over (R245): the form, the space (0 global, 1 scratchpad, 2 registers), the place, the size of the write
and the value before. -/
structure Overwritten where
  form : Nat
  space : Nat
  place : Nat
  size : Nat
  old : Nat
  /-- the group's last release made the write known to whatever acquires after it (R383, R385) -/
  known : Bool := false
  deriving DecidableEq, Repr

/-- The form that holds the head of the vector queue, once checked (R230, R239). -/
structure FormRun where
  outer : Block
  inner : Option Block := none
  /-- element count N (R229) -/
  n : Nat
  feed : Option Feed := none
  /-- the element group under way, once probed -/
  plan : Option (List FormStep) := none
  /-- its reads made early, of this group and of up to 8 groups ahead (R239, log entry 1) -/
  early : List EarlyRead := []
  deriving DecidableEq, Repr

/-- A save that a group is to make (R427, R438): its area, the slot of the pool, and whether it is queued again at once. -/
structure SaveReq where
  area : Nat
  slot : Option Nat
  queued : Bool
  /-- ACT of a RESUME that has used the group's token: it acts when the group is placed again (R424) -/
  act : Option Nat := none
  deriving DecidableEq, Repr

/-- The context of a resident group. -/
structure Grp where
  core : Nat
  slot : Nat
  launch : Nat
  ordinal : Nat
  part : Nat
  prio : Nat
  cls : Nat
  fuse : Bool := false
  /-- admission number of the launch: with the ordinal, the age of R133 -/
  age : Nat
  /-- register size in words (R32) -/
  regWords : Nat
  declVl : Nat
  nreg : Nat
  nacc : Nat
  spad : Nat
  spadBase : Nat := 0
  s : FMap W64 := []
  v : FMap W32 := []
  m : FMap Mask := []
  acc : FMap W32 := []
  flags : FMap Nat := []
  pc : W64
  hdr : W64
  /-- dwords of the fetched clause, header first; empty when a fetch is due -/
  clause : List W64 := []
  /-- dwords of a clause fetch that waits for a dword of leased memory (R330), and the request for it: device and number -/
  partly : List W64 := []
  asked : Option (Nat × Nat) := none
  /-- the clause at `hdr` is entered at `pc` without evaluating WAIT (R145) -/
  midClause : Bool := false
  level : Level := .user
  run : RunState := .running
  /-- CYCLE at which a `yield` ends; 0 when none is under way (R168) -/
  yieldUntil : Nat := 0
  vl : Nat
  vtail : Nat
  vconf : W64
  xflags : Nat := 0
  allocth : Nat := 0x00010000
  rankcfg : W64 := 0
  attbase : W64 := 0
  recbase : W64 := 0
  fprog : FMap W64 := []
  counted : List Counted := []
  tepc : W64 := 0
  thdr : W64 := 0
  tcause : W64 := 0
  taddr : W64 := 0
  tscr0 : W64 := 0
  tscr1 : W64 := 0
  /-- the control thread's copy of VCONF.DRM (R158) -/
  drm : Nat
  vq : List VEntry := []
  flights : List Flight := []
  undo : List (Nat × Undo) := []
  stores : List StoreEntry := []
  loads : List Load := []
  /-- what scalar loads have read ahead of older vector-side words (R380) -/
  readAhead : List ReadAhead := []
  /-- number of the next instruction issued, in program order -/
  nextId : Nat := 0
  /-- generation tag of loads (R427) -/
  gen : Nat := 0
  att : FMap (BitVec 16) := []
  recon : FMap (BitVec 16) := []
  gbars : Nat := 0
  /-- arrived at a `bar` (scope, number) or at a `gbar` and not released (R397, R398) -/
  arrived : Option (Nat × Nat) := none
  /-- a barrier released this group, whose word may now issue the next one -/
  released : Bool := false
  form : Option FormRun := none
  /-- number of the form in progress at the head of the queue, or of the last one; a form that resumes keeps it (R240) -/
  formId : Nat := 0
  /-- the same as the group's handler was entered: `eret` goes back to it (R240) -/
  trapForm : Nat := 0
  /-- what forms have written over since the last `fbar`, newest first: younger forms may still read it (R245) -/
  formPast : List Overwritten := []
  /-- words that raise CP issued so far (R240) -/
  cps : Nat := 0
  /-- resume token of a parked group (R418) -/
  token : Nat := 0
  /-- CYCLE since which this eligible group has been passed over (R132) -/
  waitingSince : Option Nat := none
  /-- the same of its queue's head at the vector issue (R133) -/
  unissuedSince : Option Nat := none
  /-- the token that a `ctxsave` of this group is saving (R438) -/
  saveWait : Option Nat := none
  /-- it was placed as priority 0 (R127) -/
  promoted : Bool := false
  /-- it has been asked to halt (R427) -/
  halt : Bool := false
  save : Option SaveReq := none
  deriving DecidableEq, Repr

/-- A write meets a range of bytes. -/
def Overwritten.meets (h : Overwritten) (space place n : Nat) : Bool :=
  decide (h.space = space) && decide (h.place < place + n) && decide (place < h.place + h.size)

/-- What is left of a write's history outside a range of bytes. -/
def Overwritten.without (h : Overwritten) (space place n : Nat) : List Overwritten :=
  if !h.meets space place n then [h]
  else
    (if h.place < place then [{ h with size := place - h.place, old := h.old % 256 ^ (place - h.place) }] else [])
      ++ (if place + n < h.place + h.size then
            [{ h with place := place + n, size := h.place + h.size - (place + n), old := h.old / 256 ^ (place + n - h.place) }]
          else [])

/-- A range of bytes that the group has read or written otherwise than by a form: what forms wrote over there before is read by no
younger form (R245, R380). -/
def Grp.touch (g : Grp) (space place n : Nat) : Grp :=
  { g with formPast := g.formPast.flatMap (fun h => h.without space place n) }

/-- The space of a lease's region among those of notes of reads (R380). -/
def leaseSpace (lease : Nat) : Nat := 3 + lease

/-- A vector-side word older than `id` is left. -/
def Grp.olderWord (g : Grp) (id : Nat) : Bool := g.vq.any (fun e => e.id < id) || g.flights.any (fun f => f.entry.id < id)

/-- What a scalar load read is noted where an older vector-side word is left that may read the same bytes (R380): `value` is the aligned
eight bytes that hold them. -/
def Grp.noteRead (g : Grp) (id space place n value : Nat) : Grp :=
  if g.olderWord id then
    { g with readAhead := ⟨id, space, place, n, value⟩ :: g.readAhead.filter (fun h => g.olderWord h.id) }
  else g

/-- An aligned value of up to eight bytes as word `id` reads it: where a younger scalar load of the group has read some of its bytes
before, as it was at the first such load, whole, so that the two never return writes in the reverse of their coherence order (R379,
R380); else `x`. -/
def Grp.valueRead (g : Grp) (id space place n x : Nat) : Nat :=
  match (g.readAhead.filter (fun h => h.id > id && h.space = space && decide (h.place < place + n)
      && decide (place < h.place + h.size))).getLast? with
  | some h => h.value / 256 ^ (place % 8) % 256 ^ n
  | none => x

/-- A value of `n` aligned words of eight bytes as word `id` reads it. -/
def Grp.wordsRead (g : Grp) (id space place : Nat) : Nat → Nat → Nat
  | 0, _ => 0
  | n + 1, x => g.valueRead id space place 8 (x % 2 ^ 64) + 2 ^ 64 * g.wordsRead id space (place + 8) n (x / 2 ^ 64)

/-- A value of any size as word `id` reads it: element by element of up to eight bytes. -/
def Grp.bytesRead (g : Grp) (id space place n x : Nat) : Nat :=
  if n ≤ 8 then g.valueRead id space place n x else g.wordsRead id space place ((n + 7) / 8) x

/-- Entry of a rank table that nothing has written: 1.0 (R285). -/
def tableReset : BitVec 16 := 0x3C00

/-- The register file reads s0 as zero (R34). -/
def Grp.reg (g : Grp) (n : Nat) : W64 := if n = 0 then 0 else FMap.get 0 g.s n

/-- A write to a scalar register; s0 discards it (R34). -/
def Grp.setReg (g : Grp) (n : Nat) (x : W64) : Grp :=
  if n = 0 then g else { g with s := FMap.set 0 g.s n x }

/-- A mask register. -/
def Grp.mask (g : Grp) (n : Nat) : Mask := FMap.get 0 g.m n

/-- A write of a whole mask register. -/
def Grp.setMask (g : Grp) (n : Nat) (x : Mask) : Grp := { g with m := FMap.set 0 g.m n x }

/-- Word `k` of vector register `x`; a span of registers is the string of their words (R36, R177). -/
def Grp.word (g : Grp) (x k : Nat) : W32 := FMap.get 0 g.v (x * g.regWords + k)

/-- A write of word `k` of the span at register `x`. -/
def Grp.setWord (g : Grp) (x k : Nat) (w : W32) : Grp :=
  { g with v := FMap.set 0 g.v (x * g.regWords + k) w }

/-- Element `e` of width `w` of the operand at register `x` (R36, R177). -/
def Grp.elem (g : Grp) (x w e : Nat) : Nat :=
  if w = 64 then (g.word x (2 * e)).toNat + 2 ^ 32 * (g.word x (2 * e + 1)).toNat
  else bitsOf (g.word x (e * w / 32)).toNat (e * w % 32) w

/-- A write of element `e` of width `w` of the operand at register `x` (R36, R177). -/
def Grp.setElem (g : Grp) (x w e val : Nat) : Grp :=
  if w = 64 then
    (g.setWord x (2 * e) (BitVec.ofNat 32 val)).setWord x (2 * e + 1) (BitVec.ofNat 32 (val / 2 ^ 32))
  else
    g.setWord x (e * w / 32)
      (BitVec.ofNat 32 (setBitsOf (g.word x (e * w / 32)).toNat (e * w % 32) w val))

/-- Word (row, column) of accumulator tile `t` (R38). -/
def Grp.tile (g : Grp) (t row col : Nat) : Nat := (FMap.get 0 g.acc (t * 4096 + row * 32 + col)).toNat

/-- A write of word (row, column) of accumulator tile `t` (R38). -/
def Grp.setTile (g : Grp) (t row col val : Nat) : Grp :=
  { g with acc := FMap.set 0 g.acc (t * 4096 + row * 32 + col) (BitVec.ofNat 32 val) }

/-- The pending count of a completion flag (R48). -/
def Grp.flag (g : Grp) (f : Nat) : Nat := FMap.get 0 g.flags f

/-- One added to the count of each flag named (R48). -/
def Grp.raiseFlags (g : Grp) (fs : List Nat) : Grp :=
  { g with flags := fs.foldl (fun m f => FMap.set 0 m f (FMap.get 0 m f + 1)) g.flags }

/-- One taken from the count of each flag named (R48). -/
def Grp.lowerFlags (g : Grp) (fs : List Nat) : Grp :=
  { g with flags := fs.foldl (fun m f => FMap.set 0 m f (FMap.get 0 m f - 1)) g.flags }

/-- The value of an in-flight counter (R151). -/
def Grp.counter (g : Grp) (p : Path) : Nat := (g.counted.filter (fun c => c.path = p)).length

/-- Instruction `id` counted on a path (R151). -/
def Grp.raise (g : Grp) (p : Path) (id : Nat) : Grp := { g with counted := g.counted ++ [⟨p, id, false⟩] }

/-- The list without the longest prefix, on one path, of instructions that have returned (R151). -/
def dropReturned (p : Path) : List Counted → List Counted
  | [] => []
  | c :: t => if c.path = p then (if c.returned then dropReturned p t else c :: t) else c :: dropReturned p t

/-- Instruction `id` has returned on a path: the counter falls in issue order (R151). -/
def Grp.lower (g : Grp) (p : Path) (id : Nat) : Grp :=
  let mark (c : Counted) : Counted := if c.path = p ∧ c.id = id then { c with returned := true } else c
  { g with counted := dropReturned p (g.counted.map mark) }

/-- XFLAGS bits with those that undo-log entries hold (R143). -/
def loggedFlags (x : Nat) (undo : List (Nat × Undo)) : Nat :=
  undo.foldl (fun x u => match u.2 with | .flags b => Nat.lor x b | _ => x) x

/-- XFLAGS as the group sees it: what committed instructions set and what younger scalar instructions set (R143). -/
def Grp.xflagsNow (g : Grp) : Nat := loggedFlags g.xflags g.undo

/-- TACT: the group is in its handler (R417). -/
def Grp.tact (g : Grp) : Bool := g.tcause.getLsbD 31

/-- VCONF.FMT (R40). -/
def Grp.fmt (g : Grp) : Nat := bitsOf g.vconf.toNat 2 4
/-- The block length 16·2^BLK of VCONF (R40). -/
def Grp.blk (g : Grp) : Nat := 16 * 2 ^ bitsOf g.vconf.toNat 10 3
/-- VCONF.DRM (R40). -/
def Grp.vdrm (g : Grp) : Nat := bitsOf g.vconf.toNat 13 3

/-- Entries of the vector queue in use: a pair takes two (R140, R238). -/
def Grp.vqUsed (g : Grp) : Nat := (g.vq.map (fun e => if e.inner.isSome then 2 else 1)).sum

/-- VCOMMIT: the oldest uncommitted word, or the next control-thread word (R39, R141). -/
def Grp.vcommit (g : Grp) : W64 := match g.vq with | e :: _ => e.pc | [] => g.pc

/-- The header of the clause that holds VCOMMIT. -/
def Grp.vcommitHdr (g : Grp) : W64 := match g.vq with | e :: _ => e.hdr | [] => g.hdr

/-- Element `e` is active under m0 and m[mreg] (R176). -/
def Grp.active (g : Grp) (mreg e : Nat) : Bool :=
  decide (e < g.vl) && (g.mask 0).getLsbD e && (mreg = 0 || (g.mask mreg).getLsbD e)

/-- Scalar register `n` waits for a value: a scalar load, or a vector-side instruction that marked it (R147). -/
def Grp.loadPending (g : Grp) (n : Nat) : Bool := n ≠ 0 && g.loads.any (fun l => l.sd = n)

end Sys2Proof.Machine
end

