-- ==== Sys2Proof/Machine/Units.lean ====
section
/-!
DEFINITION. What cores, clusters, dies, partitions, queues and launches hold, as plain data (chapters 01, 05, 06, 11,
13, 14, 16, 18, 19).
-/
namespace Sys2Proof.Machine

/-- One level of a loop-nest record (R73). -/
structure LnrLevel where
  lo : Int
  hi : Int
  step : Int
  deriving DecidableEq, Repr

/-- A loop-nest record's walk (R73, R74): ORDER and its levels. -/
structure Lnr where
  order : Nat
  levels : List LnrLevel
  deriving DecidableEq, Repr

/-- Where a launch record came from (R101, R116): a queue and its index, or a group's `launch`. -/
inductive Origin where
  | queue (q index : Nat)
  | group (gtag : Nat) (record pc hdr : W64)
  deriving DecidableEq, Repr

/-- A launch record as read and validated (R106, R108). -/
structure LaunchRec where
  entry : W64
  args : W64
  btbase : W64
  btcount : Nat
  vconf : W64
  vl : Nat
  spad : Nat
  nacc : Nat
  nreg : Nat
  done : W64
  prio : Nat
  cls : Nat
  l1fuse : Bool
  lnr : Lnr
  part : Nat
  home : Nat
  /-- whose record it is (R422) -/
  origin : Origin
  deriving DecidableEq, Repr

/-- A task of a concurrent launch assigned to a core, with its run of granules, until it retires (R125). -/
structure Reserved where
  ordinal : Nat
  core : Nat
  granule : Nat
  placed : Bool := false
  deriving DecidableEq, Repr

/-- An admitted launch (R117, R124, R125). -/
structure Launch where
  record : LaunchRec
  /-- total task count T (R76) -/
  total : Nat
  /-- ordinal of the next task to place (R122) -/
  next : Nat := 0
  /-- the core that received the most recent task (R121) -/
  cursor : Option Nat := none
  reserved : List Reserved := []
  /-- it holds the reservation of its partition (R125) -/
  holds : Bool := false
  /-- tasks placed so far -/
  placed : Nat := 0
  retired : Nat := 0
  error : Bool := false
  suspended : Bool := false
  /-- `gbar` instances that are complete, and the tasks that have arrived at the next one (R398) -/
  gbarDone : Nat := 0
  gbars : List Nat := []
  deriving DecidableEq, Repr

/-- A group saved in memory and waiting to be placed again (R430-R432). -/
structure SavedGrp where
  launch : Nat
  ordinal : Nat
  part : Nat
  prio : Nat
  cls : Nat
  fuse : Bool
  age : Nat
  area : Nat
  /-- slot of the partition's save pool, when the pool holds it -/
  slot : Option Nat
  /-- token of a parked group (R424) -/
  token : Option Nat
  vl : Nat
  nreg : Nat
  nacc : Nat
  spad : Nat
  /-- its copies and other counted instructions, by program order: the counters of its area (R346) -/
  counted : List Counted := []
  /-- CYCLE at which its save completed (R127) -/
  since : Nat
  /-- placed by `ctxload` or by the walker: it may be placed now -/
  queued : Bool
  /-- it has waited long enough to place as priority 0 (R127) -/
  promoted : Bool := false
  /-- RESUME or TERMINATE reached it while saved (R424): what it does when it is placed -/
  resumed : Bool := false
  terminate : Bool := false
  /-- numbers that the model goes on with: the next word, the generation of its loads, the words that raised CP -/
  nextId : Nat := 0
  gen : Nat := 0
  cps : Nat := 0
  deriving DecidableEq, Repr

/-- A copy descriptor as read (R344). -/
structure CopyDesc where
  src : W64
  dst : W64
  len0 : Nat
  cnt1 : Nat
  cnt2 : Nat
  dsp : Bool
  ssp : Bool
  dim : Nat
  sstr1 : Int
  sstr2 : Int
  dstr1 : Int
  dstr2 : Int
  deriving DecidableEq, Repr

/-- A posted copy (R346): who posted it, its descriptor, and how far it is. -/
structure CopyJob where
  launch : Nat
  ordinal : Nat
  gtag : Nat
  part : Nat
  pc : W64
  hdr : W64
  /-- program-order number of the word, which CP counts (R151) -/
  id : Nat
  queue : Nat
  desc : W64
  counter : W64
  feed : Bool
  release : Bool
  /-- trigger counter and threshold of a `tcopy` not yet fired (R350) -/
  trigger : Option (W64 × Nat) := none
  /-- the descriptor, once the post is accepted (R346) -/
  read : Option CopyDesc := none
  flags : List Nat := []
  /-- number of the form that has claimed it (R232) -/
  claimed : Option Nat := none
  /-- words that raise CP issued before it (R240) -/
  cps : Nat := 0
  /-- bytes performed so far, in the order of R345's loop -/
  written : Nat := 0
  /-- bytes written out of that order -/
  early : List Nat := []
  /-- bytes read and not yet written: which, and their values -/
  buffer : List (Nat × Nat) := []
  failed : Option Nat := none
  failAddr : W64 := 0
  /-- DETAIL of its event: 6 for a lease that was not the device's to use (R374) -/
  failDetail : Nat := 0
  /-- the trigger of a `tcopy` has been met while its queue was full (R114) -/
  met : Bool := false
  done : Bool := false
  /-- its counter has been raised and CP returned; a feed copy is kept until its form has ended -/
  closed : Bool := false
  spadBase : Nat := 0
  spad : Nat := 0
  deriving DecidableEq, Repr

/-- A barrier instance (R397): launch, number, scope, the count of its first arrival and the arrivals so far. -/
structure Bar where
  launch : Nat
  number : Nat
  count : Nat
  arrivals : List Nat
  deriving DecidableEq, Repr

/-- A block-table entry kept validated on a core (R63). -/
structure KeptBlock where
  launch : Nat
  lbid : Nat
  block : Block
  deriving DecidableEq, Repr

/-- What a scrub acts on and whom it tells (R440, R444). -/
structure Scrub where
  /-- counter raised at the end; 0 none -/
  counter : W64 := 0
  part : Nat := 255
  gtag : Nat := 0xFFFF
  pc : W64 := 0
  hdr : W64 := 0
  launch : Nat := 0
  deriving DecidableEq, Repr

/-- What one task takes of a core (R119): its slot, register words, tiles, and its run of granules. -/
structure Holding where
  launch : Nat
  slot : Nat
  words : Nat
  tiles : Nat
  granule : Nat
  granules : Nat
  deriving DecidableEq, Repr

/-- A core (R18, R119, R129, R297, R347). -/
structure CoreUnit where
  /-- working lanes W (R18); 32 after reset (log entry 4) -/
  lanes : Nat := 32
  /-- PCORE (R129) -/
  part : Nat := 0
  /-- a PCORE value waiting to take effect (R130) -/
  pending : Option Nat := none
  scrub : Option Scrub := none
  /-- owner of each granule: a launch number (R297) -/
  owner : Assoc Nat := []
  /-- what contexts released and not yet scrubbed still take (R443, R444) -/
  releases : List Holding := []
  permitted : List Nat := []
  copies : List CopyJob := []
  blocks : List KeptBlock := []
  /-- instruction dwords that this core has taken for a launch, each as it was then (R62) -/
  icache : List (Nat × Nat × W64) := []
  /-- dwords of block tables that it has taken for a launch, each as it was then (R63) -/
  blockPast : List (Nat × Nat × W64) := []
  bars : List Bar := []
  /-- tokens of its network port (R322); log entry 5 -/
  bucket : Nat := 0
  /-- tokens that requests which wait at the port have taken from it, before they have as many as they need (R322) -/
  credit : Nat := 0
  /-- a request waits at the port for tokens (R322, R323) -/
  asking : Bool := false
  deriving DecidableEq, Repr

/-- A matrix request in the reservation table (R261). -/
structure MatrixEntry where
  gtag : Nat
  id : Nat
  prio : Nat
  /-- CYCLE at which it entered (R261, R262) -/
  entered : Nat
  /-- its operand sectors are pinned (R264) -/
  ready : Bool := false
  /-- the sectors of 32 bytes that it pins: the memory, 0 or one more than a lease, and the sector in it -/
  pins : List (Nat × Nat) := []
  /-- reads of its operands made early: place among them and value (log entry 1) -/
  early : List (Nat × Nat) := []
  /-- CYCLE at which its pass may end (R251) -/
  ends : Nat := 0
  deriving DecidableEq, Repr

/-- A cluster (R128, R261, R397). -/
structure ClusterUnit where
  /-- the launch that fused it (R128) -/
  fused : Option Nat := none
  /-- the write-back of a fusing or unfusing cluster is under way (R128) -/
  busy : Bool := false
  table : List MatrixEntry := []
  /-- the request whose pass holds the engine (R262) -/
  granted : Option MatrixEntry := none
  bars : List Bar := []
  deriving DecidableEq, Repr

/-- A monitor unit (R448, R449). -/
structure Monitor where
  config : W64 := 0
  min : Nat := 0xFFFFFFFF
  max : Nat := 0
  count : Nat := 0
  bins : FMap Nat := []
  deriving DecidableEq, Repr

/-- A die (R117, R134, R448). -/
structure DieUnit where
  congestion : Nat := 0
  /-- CYCLE of the latest refill of its token buckets (R323) -/
  refilled : Nat := 0
  monitors : FMap Monitor := []
  deriving DecidableEq, Repr

/-- A record waiting for room in a fault queue, and the group it belongs to (R421). -/
structure WaitingRecord where
  gtag : Nat
  token : Nat
  bytes : List Byte
  /-- its slot translates, but cannot be written at once: it is tried again without a write of a register -/
  soon : Bool := false
  deriving DecidableEq, Repr

/-- The registers of a partition (R303, R321, R358, R420, R430). -/
structure PartUnit where
  root : W64 := 0
  share : Nat := 0
  pftag : Nat := 0
  fqbase : W64 := 0
  fqwidx : Nat := 0
  fqridx : Nat := 0
  eqbase : W64 := 0
  eqwidx : Nat := 0
  eqridx : Nat := 0
  tvec : W64 := 0
  eqovfl : Nat := 0
  waiting : List WaitingRecord := []
  /-- event records whose slots translate, but cannot be written at once, oldest first (R421) -/
  events : List (List Byte) := []
  savePool : W64 := 0
  /-- slots of the save pool in use (R430) -/
  slots : List Nat := []
  /-- a scrub of the partition's lines (R440) -/
  scrub : Option Scrub := none
  deriving DecidableEq, Repr

/-- QSTATE (R97). -/
inductive QState where
  | disabled | active | overrun | stopped
  deriving DecidableEq, Repr

/-- QSTATE as read (R97). -/
def QState.num : QState → Nat
  | .disabled => 0
  | .active => 1
  | .overrun => 2
  | .stopped => 3

/-- A host work queue (R94-R101). -/
structure QueueUnit where
  wptr : Nat := 0
  rptr : Nat := 0
  state : QState := .disabled
  rbase : W64 := 0
  log2d : Nat := 0
  lrf128 : Bool := false
  priomin : Nat := 0
  /-- its partition; 255 before a descriptor has been read (log entry 19) -/
  part : Nat := 255
  /-- a fetch of record RPTR is under way (R101) -/
  fetching : Bool := false
  deriving DecidableEq, Repr

/-- A fetched or posted record (R101, R116) on its way to admission. -/
structure PendingRec where
  /-- its dwords as read -/
  raw : List W64
  part : Nat
  home : Nat
  /-- the least priority number that it may take (R102, R116) -/
  least : Nat
  origin : Origin
  /-- the record once validated (R106, R108) -/
  record : Option LaunchRec := none
  /-- wait entries not yet met (R112) -/
  waits : List (W64 × Nat) := []
  /-- the cause that it has failed with, while the raise of its DONE waits (R103) -/
  failed : Option Nat := none
  deriving DecidableEq, Repr

/-- What a walk for a page found, kept until an invalidation of it (R308, R309): partition, virtual page of 64 KiB, its leaf as
read, or the detail of the fault that the walk ended with. -/
structure CachedXl where
  part : Nat
  vpage : Nat
  /-- address of the leaf entry; none for an ATS result -/
  leaf : Option Nat
  dword0 : W64
  dword1 : W64
  level : Nat
  fault : Option Nat := none
  deriving DecidableEq, Repr

/-- A dword of memory that a walker of a partition has taken, and when (R304). -/
structure WalkDword where
  part : Nat
  pa : Nat
  value : W64
  cycle : Nat
  deriving DecidableEq, Repr

/-- A request to the host for a translation (R303). -/
structure HostRequest where
  part : Nat
  pasid : Nat
  va : W64
  write : Bool
  /-- the ATS request was refused and the page request is under way -/
  pri : Bool := false
  /-- the page request failed: detail 0x05 -/
  failed : Bool := false
  deriving DecidableEq, Repr

/-- A page migration under way (R315, R316), the demotion of a lease's page among them (R373). -/
structure Migration where
  /-- device physical address of the record -/
  record : Nat
  part : Nat
  /-- address of the leaf entry -/
  leaf : Nat
  /-- bytes of the page -/
  size : Nat
  va : W64
  /-- unit P is locked by the copy (R316) -/
  locked : Bool := false
  /-- the lease that a demotion serves; none for `pmigrate` -/
  lease : Option Nat := none
  /-- the page was pinned when its demotion began (R373) -/
  pinned : Bool := false
  deriving DecidableEq, Repr

/-- States of a lease entry, at the lender and at the borrower (R371, R372). -/
inductive LeaseState where
  | exported | lent | reclaiming | active | demoting | returning | revoked
  deriving DecidableEq, Repr

/-- An entry of the lease table (R367, R368, R371, R372). -/
structure LeaseEntry where
  number : Nat
  /-- this device is the borrower -/
  borrower : Bool
  peer : Nat
  part : Nat
  base : W64
  gran : Nat
  notice : Nat
  backed : Bool
  rate : Nat
  resv : Nat
  rtier : Nat
  mrec : Nat
  state : LeaseState
  /-- D_L or D_B, in cycles, once set -/
  deadline : Option Nat := none
  deriving DecidableEq, Repr

end Sys2Proof.Machine
end

