-- ==== Sys2Proof/Machine/Outside.lean ====
section
/-!
DEFINITION. What the fabric ports, the collective walkers, the checkpoint drain, partition teardown and the Perell root hold,
as plain data (chapters 15, 17 and 19).
-/
namespace Sys2Proof.Machine

/-- Who waits for the answer to a request (R356, R330, R407). -/
inductive Asker where
  /-- a vector-side instruction of a group -/
  | vector (gtag id : Nat)
  /-- a scalar load or atomic -/
  | load (gtag id : Nat)
  /-- a clause fetch -/
  | fetch (gtag : Nat)
  /-- a store-buffer entry -/
  | store (gtag id : Nat)
  /-- an engine, or a word or form that reads or writes for itself: which, its number, and the address -/
  | engine (unit a b : Nat) (va : W64)
  /-- transfer `index` of the instance that a die posted -/
  | transfer (die : Nat) (collid : Nat) (inst : W64) (nmem index : Nat)
  /-- a coordination message -/
  | message (die : Nat) (collid : Nat) (inst : W64) (nmem msg : Nat)
  deriving DecidableEq, Repr

/-- A request that has not been answered (R363, R364). -/
structure Request where
  dst : Nat
  seq : Nat
  what : Sent
  who : Asker
  part : Nat
  launch : Nat := 0
  pc : W64 := 0
  hdr : W64 := 0
  ordf : Bool := false
  /-- the spine group that its route keeps to, under SGV (R355) -/
  group : Option Nat := none
  /-- the element that bit 0 of its MASK stands for (R357) -/
  first : Nat := 0
  /-- on its way: not held back by ORDF or by the limit of 65,536 -/
  sent : Bool := false
  /-- CYCLE of the latest send -/
  at_ : Nat := 0
  resends : Nat := 0
  deriving DecidableEq, Repr

/-- What a destination remembers of one source (R366): one above the greatest SEQ seen, and the SEQs seen with the answer
to each, once it is made. -/
structure Window where
  top : Nat := 0
  seen : List (Nat × Option Packet) := []
  deriving DecidableEq, Repr

/-- A request that has arrived and is being performed (R359, R406): a packet, or a transfer of another member. -/
structure Serving where
  src : Nat
  seq : Nat
  what : Sent
  /-- elements still to be performed -/
  todo : List Nat
  /-- elements that failed, with the reason -/
  failed : List (Nat × Nat) := []
  /-- values read -/
  got : List (Nat × Nat) := []
  /-- bytes written: address and how many (R391) -/
  wrote : List (Nat × Nat) := []
  deriving DecidableEq, Repr

/-- A packet in a port's buffer, with the flits it still has to send (R361). -/
structure Waiting where
  what : Sent
  left : Nat
  /-- the spine it travels on (R362) -/
  spine : Nat := 0
  /-- lease demotion or checkpoint data -/
  reserve : Bool := false
  deriving DecidableEq, Repr

/-- A packet on the links, and the spine it travels on (R362). -/
structure Carried where
  spine : Nat
  what : Sent
  deriving DecidableEq, Repr

/-- An output port (R25, R361). -/
structure Port where
  vc0 : List Waiting := []
  vc1 : List Waiting := []
  vc2 : List Waiting := []
  starve1 : Nat := 0
  starve2 : Nat := 0
  bucket : Nat := 0
  /-- slots since the last refill of the bucket -/
  slots : Nat := 0
  /-- trained rate (live): 0 down, 1 112G, 2 224G -/
  rate : Nat := 0
  deriving DecidableEq, Repr

/-- The fabric side of the device (R357-R366). -/
structure Fabric where
  /-- this device's number -/
  device : Nat := 0
  /-- next SEQ by destination (R363) -/
  seqs : FMap Nat := []
  requests : List Request := []
  /-- answers that an engine has not yet taken: the value, or none where the access failed -/
  answers : List (Asker × Option Nat) := []
  /-- who of them has an answer that failed because the lender no longer lends: reason 6 (R371, R374) -/
  lapsed : List Asker := []
  /-- by source device (R366) -/
  windows : FMap Window := []
  ports : FMap Port := []
  /-- what has left the ports, oldest first -/
  links : List Carried := []
  /-- requests being performed -/
  serving : List Serving := []
  /-- what goes from die to die between members of a collective, with its acknowledgements (R407, R408) -/
  local_ : List Sent := []
  deriving DecidableEq, Repr

/-- A GRANT sent and not answered (R369). -/
structure PendingLmap where
  gtag : Nat
  entry : LeaseEntry
  started : Nat
  /-- its RATE is more than the leases held leave (R369) -/
  overRate : Bool := false
  /-- the answer: granted or refused -/
  answer : Option Bool := none
  /-- the 100 microseconds have passed -/
  expired : Bool := false
  deriving DecidableEq, Repr

/-- A running checkpoint (R375, R376). -/
structure Ckpt where
  counter : W64
  part : Nat
  launch : Nat
  gtag : Nat
  /-- device, granules and base of each target -/
  targets : List (Nat × Nat × Nat)
  pc : W64
  hdr : W64
  /-- units of 256 bytes sent so far -/
  next : Nat := 0
  /-- target that refused its data -/
  failed : Option Nat := none
  deriving DecidableEq, Repr

/-- States of a member's instance (R405); a failed or complete one closes once its counter is raised. -/
inductive CollPhase where
  | posted | signed | sending | sent
  /-- the cause code of its failure, or 0 -/
  | closing (cause : Nat)
  deriving DecidableEq, Repr

/-- The transfer template and the peer terms of a transfer-form LNR (R78, R79). -/
structure Template where
  /-- PA, PB, PC and PN of each level -/
  peers : List (Int × Int × Int × Nat)
  srcBase : W64
  dstBase : W64
  srcStrides : List Int
  dstStrides : List Int
  len : Nat
  dstRank : Int
  opc : Nat
  typ : Nat
  lbid : Nat
  deriving DecidableEq, Repr

/-- A posted collective (R402, R405). -/
structure Coll where
  die : Nat
  gtag : Nat
  id : Nat
  launch : Nat
  ordinal : Nat
  part : Nat
  pc : W64
  hdr : W64
  lnr : W64
  table : W64
  counter : W64
  inst : W64
  btbase : W64
  btcount : Nat
  flags : List Nat
  /-- CYCLE of the post (R405) -/
  since : Nat := 0
  phase : CollPhase := .posted
  collid : Nat := 0
  /-- device and die of each member, by rank -/
  members : List (Nat × Nat) := []
  rank : Nat := 0
  sig : Signature := ⟨0, 0, 0, 0⟩
  block : Option Block := none
  walk : Lnr := ⟨0, []⟩
  tmpl : Option Template := none
  /-- position in its walk of the next transfer -/
  next : Nat := 0
  /-- it has met a COLLFAULT and told rank 0: it emits no more, and waits for ABORT (R405, R413) -/
  faulted : Bool := false
  /-- transfers sent and not acknowledged, by position -/
  unacked : List Nat := []
  /-- rank sets combined, by destination range: address, length, first rank and count (R411) -/
  combined : List (W64 × Nat × Nat × Nat) := []
  deriving DecidableEq, Repr

/-- The coordinator's record of an instance at rank 0 (R405). -/
structure Coord where
  die : Nat
  /-- the partition that posted at rank 0, once it has -/
  part : Nat := 0
  collid : Nat
  inst : W64
  nmem : Nat
  /-- the member table, once rank 0 has read it: coordination has begun -/
  members : List (Nat × Nat) := []
  /-- signatures received, by rank, in order of arrival -/
  sigs : List (Nat × Signature) := []
  /-- CYCLE of the later of the first signature and rank 0's own post -/
  since : Nat := 0
  going : Bool := false
  /-- ranks that have sent SENT -/
  sents : List Nat := []
  deriving DecidableEq, Repr

/-- A concluded instance at rank 0 (R405), with the table that late signatures are answered by. -/
structure Concluded where
  die : Nat
  part : Nat
  collid : Nat
  inst : W64
  members : List (Nat × Nat)
  nmem : Nat
  deriving DecidableEq, Repr

/-- The registers and storage of the Perell root (R451-R455). -/
structure Root where
  sram : Memory := []
  /-- log entries retained, oldest first -/
  log : List (List Byte) := []
  audseq : Nat := 0
  head : BitVec 512 := 0
  opn : Nat := 0
  busy : Bool := false
  /-- OPN of the operation under way -/
  doing : Nat := 0
  arg : W64 := 0
  nonce : W64 := 0
  bootm : BitVec 512 := 0
  digests : List (BitVec 512) := []
  /-- stages run, and the stage that failed (R453, R455) -/
  stages : Nat := 0
  failedStage : Nat := 0
  /-- answers in the mailbox, oldest first -/
  answers : List (List Byte) := []
  deriving DecidableEq, Repr

/-- A boot stage has failed (R453): every queue reads as DISABLED, no launch is admitted, and of what other devices ask nothing is
answered. -/
def Root.halted (r : Root) : Bool := decide (r.failedStage ≠ 0)

/-- PTEAR (R446, R447). -/
structure Teardown where
  part : Nat := 0
  nfr : Nat := 0
  flist : W64 := 0
  busy : Bool := false
  /-- the frames of the teardown under way, and how many entries of its list are none -/
  frames : List Nat := []
  skipped : Nat := 0
  deriving DecidableEq, Repr

end Sys2Proof.Machine
end

