-- ==== Sys2Proof/Machine/State.lean ====
section
/-!
DEFINITION. The state of the device, as plain data; the reasons a step can stop; the state after reset.
-/
namespace Sys2Proof.Machine

/-- A turn of the agenda: which agent acts next (log entry 1). -/
inductive Turn where
  | event (i : Instr)
  | group (gtag : Nat)
  /-- one element of a committed word, or one piece of a pass's operands, performed early -/
  | access (gtag id elem : Nat)
  /-- a committed word goes on, whatever its age -/
  | flight (gtag id : Nat)
  /-- one read of a form made early, of the element group under way or of one ahead: which element, which of its reads -/
  | formRead (gtag elem nth : Nat)
  /-- one byte of a copy moved early, with its line: which copy of a core, which byte -/
  | copyByte (core nth byte : Nat)
  /-- one byte of a copy read early -/
  | copyRead (core nth byte : Nat)
  /-- the next units of a checkpoint's image sent -/
  | drain (units : Nat)
  /-- one element of a request that is being performed for another device or member: which request, which element -/
  | serve (nth elem : Nat)
  /-- the next transfer of a collective: which post -/
  | emit (nth : Nat)
  /-- what travels between members on this device delivered: which -/
  | member (nth : Nat)
  /-- what has left the ports for this device itself delivered: which -/
  | link (nth : Nat)
  /-- a group's scalar loads are from now on performed at their return, or at their issue -/
  | lateLoads (gtag : Nat) (on : Bool)
  /-- a scalar load performed and returned, whatever its age -/
  | load (gtag id : Nat)
  /-- a walker reads a page's translation ahead of its use (R308, R309) -/
  | walkAhead (part : Nat) (va : W64)
  /-- a walker of a partition takes a dword of its tables (R304) -/
  | walkTake (part pa : Nat)
  /-- a record that waits for its slot of a ring of a partition written (R421) -/
  | ring (part : Nat)
  /-- a core's instruction cache, or its reader of block tables, takes a dword of memory for a launch (R62, R63) -/
  | takeDword (core launch pa : Nat) (code : Bool)
  deriving DecidableEq, Repr

/-- The model's own fields: which of the allowed schedules the machine follows (log entry 1). Every schedule is some
agenda; when the agenda is empty, `step` takes the first machine event that is enabled, else the next group. -/
structure Sched where
  /-- turns that are taken before the machine's own order -/
  agenda : List Turn := []
  /-- the group whose word issues next -/
  cur : Nat := 0
  /-- groups whose scalar loads are performed at their return, not at their issue (R382) -/
  late : List Nat := []
  deriving DecidableEq, Repr

/-- The state of the device. -/
structure State where
  sched : Sched
  /-- CYCLE (R39) -/
  cycle : Nat
  /-- how many free values have been drawn (log entry 2) -/
  draws : Nat
  /-- near, far and host memory by device physical address (R477) -/
  mem : Memory
  /-- scratchpads: byte `core·2^17 + offset` (R296) -/
  spad : Memory
  groups : Assoc Grp
  cores : FMap CoreUnit
  clusters : FMap ClusterUnit
  dies : FMap DieUnit
  parts : FMap PartUnit
  queues : FMap QueueUnit
  /-- fetched records by queue number -/
  fetched : Assoc PendingRec
  /-- records posted by `launch`, oldest first -/
  posted : List PendingRec
  launches : Assoc Launch
  /-- admission sequence number of the next launch (R422) -/
  nextLaunch : Nat
  saved : List SavedGrp
  /-- number of the next resume token (R424) -/
  nextToken : Nat
  qdbase : W64
  cached : List CachedXl
  /-- dwords of tables that walkers have taken, each as it was then, until an invalidation (R304, R308) -/
  walkPast : List WalkDword
  hostRequests : List HostRequest
  /-- an invalidation under way (R310) -/
  invalidation : Option W64
  invalReg : W64
  invalDrop : Bool
  migrations : List Migration
  /-- MSI-X vectors whose mask bit is clear, and those pending (R421) -/
  msixUnmasked : List Nat
  msixPending : List Nat
  msixSent : List Nat
  bandwidth : W64
  leases : List LeaseEntry
  lmaps : List PendingLmap
  fabric : Fabric
  /-- CKWIN[k]: the dwords at +0 and +8 (R375) -/
  windows : FMap (W64 × W64)
  ckpt : Option Ckpt
  colls : List Coll
  coords : List Coord
  /-- concluded instances (R405), newest last -/
  concluded : List Concluded
  /-- instances each die has posted (R403) -/
  postedColls : List (Nat × Nat × W64 × Nat)
  teardown : Teardown
  root : Root
  /-- the die-present mask (R25): a property of the package -/
  dieMask : Nat
  /-- trained generation and width of the host link (live, R25) -/
  hostLink : Nat × Nat
  deriving DecidableEq, Repr

/-- Why the machine stops with a fault: never. Every instruction and event has a next state in every state. -/
inductive Fault where
  deriving DecidableEq, Repr

/-- Why the model gives an instruction no meaning. -/
inductive Refusal where
  /-- raised by an arm of `exec` whose instruction has no meaning yet; safe -/
  | notModelled (mnemonic : String)
  deriving DecidableEq, Repr

/-- The device right after reset (R39, R96, R129, R303, R310, R321, R420, R430). -/
def State.reset : State where
  sched := {}
  cycle := 0
  draws := 0
  mem := []
  spad := []
  groups := []
  cores := []
  clusters := []
  dies := []
  parts := []
  queues := []
  fetched := []
  posted := []
  launches := []
  nextLaunch := 0
  saved := []
  nextToken := 1
  qdbase := 0
  cached := []
  walkPast := []
  hostRequests := []
  invalidation := none
  invalReg := 0
  invalDrop := false
  migrations := []
  msixUnmasked := []
  msixPending := []
  msixSent := []
  bandwidth := 0x18000
  leases := []
  lmaps := []
  fabric := {}
  windows := []
  ckpt := none
  colls := []
  coords := []
  concluded := []
  postedColls := []
  teardown := {}
  root := {}
  dieMask := 0xFF
  hostLink := (0, 0)

end Sys2Proof.Machine
end

