-- ==== Sys2Proof/Machine/Access.lean ====
section
/-!
DEFINITION. Reads and writes of the parts of State: the named operations that every meaning goes through.
-/
namespace Sys2Proof.Machine

/-- A meaning's own result: the state goes on. -/
abbrev Result := Host.Outcome State Fault Refusal

/-- The group with tag `t` = core·16 + slot (R422). -/
def State.grp (s : State) (t : Nat) : Option Grp := Assoc.find? s.groups t

/-- `s` with group `t` replaced. -/
def State.setGrp (s : State) (t : Nat) (g : Grp) : State := { s with groups := Assoc.put s.groups t g }

/-- `s` without group `t`. -/
def State.delGrp (s : State) (t : Nat) : State := { s with groups := Assoc.del s.groups t }

/-- `s` with group `t` changed by `f`, where it is resident. -/
def State.modGrp (s : State) (t : Nat) (f : Grp → Grp) : State :=
  match s.grp t with
  | some g => s.setGrp t (f g)
  | none => s

/-- The tag of a group (R422). -/
def Grp.tag (g : Grp) : Nat := g.core * 16 + g.slot

def State.coreAt (s : State) (c : Nat) : CoreUnit := FMap.get {} s.cores c
def State.setCore (s : State) (c : Nat) (u : CoreUnit) : State := { s with cores := FMap.set {} s.cores c u }
def State.clusterAt (s : State) (c : Nat) : ClusterUnit := FMap.get {} s.clusters c
def State.setCluster (s : State) (c : Nat) (u : ClusterUnit) : State :=
  { s with clusters := FMap.set {} s.clusters c u }
def State.dieAt (s : State) (d : Nat) : DieUnit := FMap.get {} s.dies d
def State.setDie (s : State) (d : Nat) (u : DieUnit) : State := { s with dies := FMap.set {} s.dies d u }
def State.partAt (s : State) (p : Nat) : PartUnit := FMap.get {} s.parts p
def State.setPart (s : State) (p : Nat) (u : PartUnit) : State := { s with parts := FMap.set {} s.parts p u }
def State.queueAt (s : State) (q : Nat) : QueueUnit := FMap.get {} s.queues q
def State.setQueue (s : State) (q : Nat) (u : QueueUnit) : State := { s with queues := FMap.set {} s.queues q u }
def State.launchAt (s : State) (n : Nat) : Option Launch := Assoc.find? s.launches n
def State.setLaunch (s : State) (n : Nat) (l : Launch) : State := { s with launches := Assoc.put s.launches n l }

/-- The launch that a LAUNCH field of 32 bits names (R422, R431, R437): its admission number modulo 2^32. -/
def State.launchNamed (s : State) (k : Nat) : Option (Nat × Launch) := List.find? (fun p => p.1 % 2 ^ 32 = k) s.launches

/-- A task of a concurrent launch is reserved its place and is not resident: not placed yet, or saved (R125). -/
def State.awaits (s : State) (n : Nat) (r : Reserved) : Bool :=
  !r.placed || s.saved.any (fun v => v.launch = n && v.ordinal = r.ordinal)

/-- The resident groups, by tag. -/
def State.allGroups (s : State) : List (Nat × Grp) := s.groups

/-- The groups of a core (R16). -/
def State.groupsOf (s : State) (c : Nat) : List Grp :=
  (s.groups.map Prod.snd).filter (fun g => g.core = c)

/-- The die of a core (R15). -/
def dieOf (core : Nat) : Nat := core / Config.coresPerDie

/-- Working lanes of a core: none on a die that is absent (R17, R25). -/
def State.lanes (s : State) (c : Nat) : Nat := if bitOf s.dieMask (dieOf c) then (s.coreAt c).lanes else 0

/-- VLMAX of a core: 8·W (R19). -/
def State.vlmax (s : State) (c : Nat) : Nat := 8 * s.lanes c

/-- The cluster of a core, numbered over the package (R15). -/
def clusterOf (core : Nat) : Nat := core / 4

/-- A choice the manual leaves to the device: one of `n`, and the state with the draw used up (log entry 2). -/
def State.choose (s : State) (n : Nat) : Nat × State :=
  (Config.freeChoice s.draws % n, { s with draws := s.draws + 1 })

/-- A number the manual leaves to the device, without a bound, and the state with the draw used up (log entry 2). -/
def State.free (s : State) : Nat × State := (Config.freeChoice s.draws, { s with draws := s.draws + 1 })

/-- The scratchpad byte at offset `off` of core `c` (R296). -/
def spadKey (c off : Nat) : Nat := c * Config.spadBytes + off

/-- The `n` bytes at scratchpad offset `off` of core `c`. -/
def State.spadRead (s : State) (c off n : Nat) : Nat := Memory.readNat s.spad (spadKey c off) n

/-- `s` with the low `n` bytes of `v` at scratchpad offset `off` of core `c`. -/
def State.spadWrite (s : State) (c off n v : Nat) : State :=
  { s with spad := Memory.writeNat s.spad (spadKey c off) n v }

/-- The device clock moves on: at least one cycle a step, and how many more is free (log entry 2). -/
def State.tick (s : State) : State :=
  { s with cycle := s.cycle + 1 + Config.freeCycles s.draws, draws := s.draws + 1 }

/-- The value of CYCLE: it wraps at 2^64 (R39). -/
def State.cycleReg (s : State) : Nat := s.cycle % 2 ^ 64

end Sys2Proof.Machine
end

