-- ==== Sys2Proof/Machine/Translate.lean ====
section
/-!
DEFINITION. Address translation (R295, R300-R310, R477): the walk, the checks of R305, the lease check of R374, the
cached translations of R308 and the host's answers of R303.
-/
namespace Sys2Proof.Machine

/-- A die is in the die-present mask (R25). -/
def diePresent (mask d : Nat) : Bool := decide (d < Config.dies) && bitOf mask d

/-- A device physical address names memory of a package with a die-present mask (R477). -/
def namesMemory (mask pa : Nat) : Bool :=
  match pa / 2 ^ 48 with
  | 0 => decide (pa % 2 ^ 48 < Config.farBytes)
  | 1 => decide (pa % 2 ^ 48 < 2 ^ 34) && diePresent mask (pa % 2 ^ 48 / 2 ^ 31)
  | 2 => true
  | _ => false

/-- Bits [63:56] all equal (R295). -/
def canonical (va : W64) : Bool :=
  decide (va.extractLsb' 56 8 = 0) || decide (va.extractLsb' 56 8 = 0xFF)

/-- The table index of a level (R301). -/
def tableIndex (level va : Nat) : Nat :=
  match level with
  | 0 => bitsOf va 41 16
  | 1 => bitsOf va 29 12
  | 2 => bitsOf va 21 8
  | _ => bitsOf va 16 5

/-- Bytes that a leaf of a level maps (R301). -/
def pageBytes (level : Nat) : Nat :=
  match level with
  | 1 => 2 ^ 29
  | 2 => 2 ^ 21
  | _ => 2 ^ 16

/-- TIER (R302). -/
def Leaf.tier (l : Leaf) : Nat := bitsOf l.d0.toNat 58 3
/-- MIG (R302). -/
def Leaf.mig (l : Leaf) : Nat := bitsOf l.d0.toNat 56 2
/-- PART (R302). -/
def Leaf.part (l : Leaf) : Nat := bitsOf l.d0.toNat 48 8
/-- LEASE (R302). -/
def Leaf.lease (l : Leaf) : Nat := bitsOf l.d0.toNat 32 16
/-- EX (R302). -/
def Leaf.ex (l : Leaf) : Bool := l.d0.getLsbD 5
/-- WR (R302). -/
def Leaf.wr (l : Leaf) : Bool := l.d0.getLsbD 4
/-- RD (R302). -/
def Leaf.rd (l : Leaf) : Bool := l.d0.getLsbD 3
/-- Dword 1, bits [51:6]: a frame or a migration record (R302). -/
def Leaf.frame (l : Leaf) : Nat := bitsOf l.d1.toNat 6 46 * 64

/-- The memory a frame of a TIER names, as the key of its bytes: a device physical address (R300, R477), and for a host address of
2^48 and more, which only a frame of TIER 100 can name, the same place above it. -/
def frameAddr (tier frame : Nat) : Nat :=
  match tier with
  | 0 => 2 ^ 48 + frame
  | 4 => 2 * 2 ^ 48 + frame
  | _ => frame

/-- A byte that a frame of tier 0, 2 or 4 may name lies in that tier's own memory (R300): near SRAM of a die that is present, the
far memory, or any address of the host. -/
def frameNames (mask tier a : Nat) : Bool :=
  match tier with
  | 0 => decide (a < 2 ^ 34) && diePresent mask (a / 2 ^ 31)
  | 2 => decide (a < Config.farBytes)
  | 4 => true
  | _ => false

/-- A frame of tiers 0, 2 and 4 that names memory (R300). -/
def frameOk (mask tier frame bytes : Nat) : Bool :=
  decide (tier = 3) || (frameNames mask tier frame && frameNames mask tier (frame + bytes - 1))

/-- How a walk ends. -/
inductive Walk where
  | leaf (l : Leaf)
  | fault (detail : Nat)
  /-- the range is translated by the host (R303) -/
  | host
  deriving DecidableEq, Repr

/-- A leaf entry keeps the rules of R302. -/
def leafOk (mask level : Nat) (d0 d1 d2 d3 : W64) : Bool :=
  let l : Leaf := ⟨none, d0, d1, level⟩
  decide (level ≠ 0) && !d0.getLsbD 61 && (decide (l.lease ≠ 0) == decide (l.tier = 3))
  && (l.tier = 0 || l.tier = 2 || l.tier = 3 || l.tier = 4) && decide (l.mig ≠ 3)
  && decide (d0.extractLsb' 8 24 = 0) && decide (d0.extractLsb' 0 3 = 0)
  && decide (d1.extractLsb' 52 12 = 0) && decide (d1.extractLsb' 0 6 = 0)
  && !d2.getLsbD 63 && decide (d3.extractLsb' 2 62 = 0)
  && (if l.mig = 1 then namesMemory mask l.frame
      else decide (l.frame % pageBytes level = 0) && frameOk mask l.tier l.frame (pageBytes level))

/-- A non-leaf entry keeps the rules of R302. -/
def tableOk (level : Nat) (d0 d1 d2 d3 : W64) : Bool :=
  decide (level < 3) && decide (d0 = 0x8000000000000000) && decide (d1.extractLsb' 52 12 = 0)
  && decide (d1.extractLsb' 0 6 = 0) && decide (d2 = 0) && decide (d3 = 0)

/-- A dword of memory at a device physical address. -/
def Memory.dword (m : Memory) (pa : Nat) : W64 := BitVec.ofNat 64 (Memory.readNat m pa 8)

/-- The reserved bits of a migration record are zero (R315): one that breaks this is rejected as a malformed entry is (R11, R305). -/
def recordClean (m : Memory) (record : Nat) : Bool :=
  let d (k : Nat) : W64 := Memory.dword m (record + 8 * k)
  let frame (x : W64) : Bool := decide (x &&& 0x1C0FFFFFFFFF0000 = x)
  frame (d 0) && frame (d 1) && decide ((d 2).extractLsb' 33 31 = 0) && [4, 5, 6, 7].all (fun k => d k = 0)

/-- What an entry of a table says: the walk ends with it, or goes on with another table. -/
inductive EntryRead where
  | ends (w : Walk)
  | table (at_ : Nat)

/-- An entry of a level at address `e`, by its four dwords (R301, R302). -/
def readEntry (mask : Nat) (m : Memory) (level e : Nat) (d0 d1 d2 d3 : W64) : EntryRead :=
  if !d0.getLsbD 63 then .ends (if d0.getLsbD 61 then .host else .fault 0x01)
  else if d0.getLsbD 62 then
    let l : Leaf := ⟨some e, d0, d1, level⟩
    .ends (if leafOk mask level d0 d1 d2 d3 && (l.mig ≠ 1 || recordClean m l.frame) then .leaf l else .fault 0x06)
  else if tableOk level d0 d1 d2 d3 then .table (bitsOf d1.toNat 6 46 * 64)
  else .ends (.fault 0x06)

/-- The walk of a table from a level, through the levels left (R301, R302). -/
def walkFrom (mask : Nat) (m : Memory) (va table level : Nat) : Nat → Walk
  | 0 => .fault 0x06
  | left + 1 =>
    let e := table + 32 * tableIndex level va
    if !namesMemory mask e then .fault 0x06
    else
      match readEntry mask m level e (Memory.dword m e) (Memory.dword m (e + 8)) (Memory.dword m (e + 16)) (Memory.dword m (e + 24)) with
      | .ends w => w
      | .table t => walkFrom mask m va t (level + 1) left

/-- A dword of a table as a walk reads it at a moment not before `since` (R304): as it is now, or as a walker of the partition took it
before. The dword, the moment, and the choice drawn. -/
def State.walkDword (s : State) (part since pa : Nat) : (W64 × Nat) × State :=
  let olds := s.walkPast.filter (fun k => k.part = part && k.pa = pa && decide (since ≤ k.cycle))
  let now := (Memory.dword s.mem pa, s.cycle)
  if olds = [] then (now, s)
  else
    let (k, s) := s.choose (olds.length + 1)
    (((olds[k]?).map (fun o => (o.value, o.cycle))).getD now, s)

/-- A walk that reads each dword at a moment of its own (R304), those of an entry after those of the table above it. -/
def walkSlowly (part va : Nat) (s : State) (table level since : Nat) : Nat → Walk × State
  | 0 => (.fault 0x06, s)
  | left + 1 =>
    let e := table + 32 * tableIndex level va
    if !namesMemory s.dieMask e then (.fault 0x06, s)
    else
      let (d0, s) := s.walkDword part since e
      let (d1, s) := s.walkDword part since (e + 8)
      let (d2, s) := s.walkDword part since (e + 16)
      let (d3, s) := s.walkDword part since (e + 24)
      match readEntry s.dieMask s.mem level e d0.1 d1.1 d2.1 d3.1 with
      | .ends w => (w, s)
      | .table t => walkSlowly part va s t (level + 1) (max (max d0.2 d1.2) (max d2.2 d3.2)) left

/-- The walk of a partition's tables (R301, R303). -/
def walk (s : State) (part : Nat) (va : W64) : Walk :=
  let root := (s.partAt part).root
  if !canonical va then .fault 0x04
  else if !root.getLsbD 63 then .fault 0x01
  else walkFrom s.dieMask s.mem va.toNat (bitsOf root.toNat 21 31 * 2 ^ 21) 0 4

/-- How a translation ends. -/
inductive Xl where
  | ok (leaf : Leaf) (target : Target)
  | fault (detail : Nat)
  | revoked (lease : Nat)
  /-- the access waits for the host (R303) -/
  | wait
  deriving DecidableEq, Repr

/-- The kind of access is allowed by RD, WR or EX (R302). -/
def allowed (l : Leaf) : AccessKind → Bool
  | .read => l.rd
  | .write => l.wr
  | .atomic => l.wr
  | .fetch => l.ex
  | .cache => l.rd || l.wr

/-- The deadline of an entry has come. -/
def LeaseEntry.due (e : LeaseEntry) (cycle : Nat) : Bool :=
  match e.deadline with
  | some d => decide (d ≤ cycle)
  | none => false

/-- This device may use the pages of a lease: it borrows it, ACTIVE, or DEMOTING before D_B (R372, R374). -/
def leaseUsable (s : State) (n : Nat) : Bool :=
  s.leases.any (fun e => e.borrower && decide (e.number = n) && (e.state = .active || (e.state = .demoting && !e.due s.cycle)))

/-- Where a byte of a leaf's page lies (R300, R302, R315). -/
def Leaf.target (l : Leaf) (va : W64) : Target :=
  let off := va.toNat % pageBytes l.level
  if l.mig = 1 then .transit l.frame off
  else if l.tier = 3 then .leased l.lease (l.frame + off)
  else .phys (frameAddr l.tier l.frame + off)

/-- The checks of an access on a leaf, the lease check last (R305, R374). -/
def checkLeaf (s : State) (part : Nat) (va : W64) (kind : AccessKind) (l : Leaf) : Xl :=
  if l.part ≠ part then .fault 0x03
  else if !allowed l kind then .fault 0x02
  else if l.tier = 3 && !leaseUsable s l.lease then .revoked l.lease
  else .ok l (l.target va)

/-- The entry at an address is a valid leaf (R302). -/
def isLeafEntry (m : Memory) (e : Nat) : Bool := (Memory.dword m e).getLsbD 63 && (Memory.dword m e).getLsbD 62

/-- Memory after the walker's atomic update of A, and of D on a write (R302): it writes no entry that is not a leaf, which one
kept from before a change of the tables may have become. -/
def markLeaf (m : Memory) (l : Leaf) (kind : AccessKind) : Memory :=
  match l.addr with
  | none => m
  | some e =>
    if !isLeafEntry m e then m
    else
      let b := Memory.read m e
      let b' := b ||| (if kind = .write ∨ kind = .atomic then 0xC0 else 0x40)
      Memory.write m e b'

/-- Two leaves that translate alike but for A and D. -/
def sameLeaf (a b : Leaf) : Bool :=
  decide (a.d0 ||| 0xC0 = b.d0 ||| 0xC0) && decide (a.d1 = b.d1) && decide (a.level = b.level)
    && (a.addr.isNone == b.addr.isNone)

/-- Two ends of a walk that say the same but for A and D. -/
def sameForm : Walk → Walk → Bool
  | .leaf a, .leaf b => sameLeaf a b
  | .fault a, .fault b => decide (a = b)
  | .host, .host => true
  | _, _ => false

/-- What a kept translation says. -/
def CachedXl.form (c : CachedXl) : Walk :=
  match c.fault with
  | some d => .fault d
  | none => .leaf ⟨c.leaf, c.dword0, c.dword1, c.level⟩

/-- The end of a walk as it is kept; that the host translates a page is not kept but for the host's answer. -/
def Walk.kept (part vpage : Nat) : Walk → Option CachedXl
  | .leaf l => some { part := part, vpage := vpage, leaf := l.addr, dword0 := l.d0, dword1 := l.d1, level := l.level }
  | .fault d =>
    some { part := part, vpage := vpage, leaf := none, dword0 := 0, dword1 := 0, level := 3, fault := some d }
  | .host => none

/-- The forms in which a page's translation has been seen since the last invalidation of it (R308). -/
def State.formsOf (s : State) (part : Nat) (va : W64) : List Walk :=
  (s.cached.filter (fun c => c.part = part ∧ c.vpage = va.toNat / 2 ^ 16)).map CachedXl.form

/-- `s` with the end of a walk kept beside the other forms of its page (R308, R309). -/
def State.hold (s : State) (part : Nat) (va : W64) (w : Walk) : State :=
  let vp := va.toNat / 2 ^ 16
  { s with cached :=
      s.cached.filter (fun c => !(c.part = part ∧ c.vpage = vp ∧ sameForm c.form w = true)) ++ (w.kept part vp).toList }

/-- A leaf that the host granted (R303). -/
def Walk.granted : Walk → Bool
  | .leaf l => l.addr.isNone
  | _ => false

/-- The partition translates this address by walks: it is canonical, and EN is set (R295, R303). -/
def State.walks (s : State) (part : Nat) (va : W64) : Bool := canonical va && (s.partAt part).root.getLsbD 63

/-- The end of a walk: for a page that the host translates, its answer where there is one (R303). -/
def hostForm (s : State) (part : Nat) (va : W64) : Walk → Walk
  | .host => ((s.formsOf part va).find? Walk.granted).getD .host
  | w => w

/-- What the tables hold of a page. -/
def currentForm (s : State) (part : Nat) (va : W64) : Walk := hostForm s part va (walk s part va)

/-- The translation that a probe uses: what the tables hold, or a form that they held since the last invalidation of the page
and that a walk saw, as the device chooses (R308, log entry 13). A partition with EN = 0 has none (R303). -/
def findLeaf (s : State) (part : Nat) (va : W64) : Walk × State :=
  if !s.walks part va then (walk s part va, s)
  else
    let now := currentForm s part va
    let olds := (s.formsOf part va).filter (fun w => !sameForm w now)
    let s := s.hold part va now
    if olds = [] then (now, s)
    else
      let (k, s) := s.choose (olds.length + 1)
      ((olds[k]?).getD now, s)

/-- A walker of a partition takes a dword of memory, by a turn of the agenda (R304, log entry 1). -/
def walkTake (s : State) (part pa : Nat) : State :=
  if namesMemory s.dieMask pa then
    { s with walkPast := s.walkPast ++ [{ part := part, pa := pa, value := Memory.dword s.mem pa, cycle := s.cycle }] }
  else s

/-- A walker reads a page's translation ahead of its use, by a turn of the agenda, each dword as it is or as a walker took it before
(R304, R308, R309, log entries 1 and 13). -/
def walkAhead (s : State) (part : Nat) (va : W64) : State :=
  if s.walks part va then
    let (w, s) := walkSlowly part va.toNat s (bitsOf (s.partAt part).root.toNat 21 31 * 2 ^ 21) 0 0 4
    s.hold part va (hostForm s part va w)
  else s

/-- The request to the host for a page, if one is under way or failed (R303). -/
def hostRequest (s : State) (part : Nat) (va : W64) : Option HostRequest :=
  s.hostRequests.find? (fun r => r.part = part ∧ r.va.toNat / 2 ^ 16 = va.toNat / 2 ^ 16)

/-- Translation of one access (R302-R308): the state with A and D marked, the leaf cached and any host request sent. -/
def translate (s : State) (part : Nat) (va : W64) (kind : AccessKind) : Xl × State :=
  match findLeaf s part va with
  | (.fault d, s) => (.fault d, s)
  | (.host, s) =>
    match hostRequest s part va with
    | some r =>
      if r.failed then
        (.fault 0x05, { s with hostRequests := s.hostRequests.filter (fun q => q ≠ r) })
      else (.wait, s)
    | none =>
      let r : HostRequest :=
        { part := part, pasid := bitsOf (s.partAt part).root.toNat 0 20, va := va
          write := kind = .write ∨ kind = .atomic }
      (.wait, { s with hostRequests := s.hostRequests ++ [r] })
  | (.leaf l, s) =>
    match checkLeaf s part va kind l with
    | .ok l t => (.ok l t, { s with mem := markLeaf s.mem l kind })
    | x => (x, s)

/-- The pages that a probe has translated, each by an address in it and its leaf (R306). -/
abbrev Seen := List (W64 × Leaf)

/-- The leaf of a page that a probe has translated already: the page is as large as its leaf maps (R301, R306). -/
def Seen.leaf (seen : Seen) (va : W64) : Option Leaf :=
  (seen.find? (fun p => p.1.toNat / pageBytes p.2.level = va.toNat / pageBytes p.2.level)).map Prod.snd

/-- Translation of an access by a probe: each distinct page is translated once (R306). -/
def translateOnce (s : State) (part : Nat) (va : W64) (kind : AccessKind) (seen : Seen) : Xl × State × Seen :=
  match seen.leaf va with
  | some l =>
    (match checkLeaf s part va kind l with
     | .ok l t => (.ok l t, { s with mem := markLeaf s.mem l kind }, seen)
     | x => (x, s, seen))
  | none =>
    match translate s part va kind with
    | (.ok l t, s) => (.ok l t, s, (va, l) :: seen)
    | (x, s) => (x, s, seen)

end Sys2Proof.Machine
end

