-- ==== Sys2Proof/Machine/Ops.lean ====
section
/-!
DEFINITION. The named operations over memory, records and groups: reading and writing translated places, posting
fault and event records (R420-R423), completion counters (R111, R478), roll-back (R144) and taking a trap (R418).
-/
namespace Sys2Proof.Machine

/-- The priority that a resident group was placed under (R127, R261). -/
def Grp.placePrio (g : Grp) : Nat := if g.promoted then 0 else g.prio

/-- Where an access is performed at this moment (R317). -/
inductive Place where
  | at (pa : Nat)
  /-- its unit is locked by a migration's copy -/
  | locked
  | leased (lease offset : Nat)
  /-- a scratchpad byte key (R296) -/
  | spad (key : Nat)
  deriving DecidableEq, Repr

/-- A frame of a migration record with an offset, as a place (R315). Software that overwrites a record so that it names
no memory breaks R315, which gives no outcome: the place is then a free one (log entry 16). -/
def recordPlace (s : State) (record tier frame off : Nat) : Place :=
  if tier = 3 then
    match (s.migrations.find? (fun g => g.record = record)).bind (fun g => g.lease) with
    | some l => .leased l (frame + off)
    | none => .at (Config.unstated 1 [record, tier, frame, off])
  else if frameNames s.dieMask tier (frame + off) then
    .at (frameAddr tier frame + off)
  else .at (Config.unstated 1 [record, tier, frame, off])

/-- Where a target lies now: a page in transit is split at P (R317). -/
def resolve (s : State) : Target → Place
  | .phys pa => .at pa
  | .leased l off => .leased l off
  | .peer _ => .locked
  | .spad k => .spad k
  | .transit record off =>
    let d (k : Nat) : Nat := (Memory.dword s.mem (record + 8 * k)).toNat
    let p := bitsOf (d 2) 0 32
    if s.migrations.any (fun g => g.record = record && g.locked) && decide (off / 256 = p) then .locked
    else if off / 256 < p then recordPlace s record (bitsOf (d 1) 58 3) (bitsOf (d 1) 16 36 * 2 ^ 16) off
    else recordPlace s record (bitsOf (d 0) 58 3) (bitsOf (d 0) 16 36 * 2 ^ 16) off

/-- The value of `n` bytes at a device physical address. -/
def State.memRead (s : State) (pa n : Nat) : Nat := Memory.readNat s.mem pa n

/-- `s` with the low `n` bytes of `v` at a device physical address. -/
def State.memWrite (s : State) (pa n v : Nat) : State := { s with mem := Memory.writeNat s.mem pa n v }

/-- A dword at a physical address as it is, or as it was when it was taken for a launch and kept in `past`, as the device chooses
(R62, R63, log entry 13). -/
def State.oldOrNew (s : State) (past : List (Nat × Nat × W64)) (launch pa : Nat) : W64 × State :=
  let now := Memory.dword s.mem pa
  let olds := (past.filter (fun c => c.1 = launch ∧ c.2.1 = pa ∧ c.2.2 ≠ now)).map (fun c => c.2.2)
  if olds = [] then (now, s)
  else
    let (k, s) := s.choose (olds.length + 1)
    ((olds[k]?).getD now, s)

/-- A dword kept for a launch as it is now. -/
def keepDword (past : List (Nat × Nat × W64)) (launch pa : Nat) (x : W64) : List (Nat × Nat × W64) :=
  if past.contains (launch, pa, x) then past else past ++ [(launch, pa, x)]

/-- A core takes a dword of memory for a running launch, as code or as part of its block table (R62, R63): a turn of the agenda (log
entry 1). -/
def takeDword (s : State) (core launch pa : Nat) (code : Bool) : State :=
  if (s.launchAt launch).isNone then s
  else
    let u := s.coreAt core
    let x := Memory.dword s.mem pa
    s.setCore core (if code then { u with icache := keepDword u.icache launch pa x }
      else { u with blockPast := keepDword u.blockPast launch pa x })

/-- A list of numbers with their widths in bytes, laid out little-endian (R9). -/
def layout : List (Nat × Nat) → List Byte
  | [] => []
  | (n, v) :: t => toBytes n v ++ layout t

/-- The fields of a fault or event record (R422). -/
structure Report where
  kind : Nat := 2
  cause : Nat
  detail : Nat := 0
  part : Nat
  plev : Nat := 0
  gtag : Nat := 0xFFFF
  token : Nat := 0
  launch : Nat := 0
  pc : W64 := 0
  hdr : W64 := 0
  addr : W64 := 0
  a0 : Nat := 0
  a1 : Nat := 0
  deriving DecidableEq, Repr

/-- The 64 bytes of a record (R422). -/
def Report.bytes (r : Report) (cycle : Nat) : List Byte :=
  layout [(1, r.kind), (1, r.cause), (2, r.detail), (1, r.part), (1, r.plev), (2, r.gtag), (4, r.token),
    (4, r.launch), (8, r.pc.toNat), (8, r.hdr.toNat), (8, r.addr.toNat), (8, r.a0), (8, r.a1), (8, cycle)]

/-- MSI-X vector `v` is raised: sent, or kept pending while masked (R421). -/
def State.msix (s : State) (v : Nat) : State :=
  if s.msixUnmasked.contains v then { s with msixSent := s.msixSent ++ [v] }
  else if s.msixPending.contains v then s
  else { s with msixPending := s.msixPending ++ [v] }

/-- A ring's base and size from its register (R420). -/
def ringBase (r : W64) : Nat := bitsOf r.toNat 6 51 * 64
def ringLog2 (r : W64) : Nat := bitsOf r.toNat 0 5
def ringEnabled (r : W64) : Bool := decide (4 ≤ ringLog2 r) && decide (ringLog2 r ≤ 16)

/-- A queue with these indices has no room (R421). -/
def ringFull (r : W64) (widx ridx : Nat) : Bool := decide ((widx + 2 ^ 32 - ridx) % 2 ^ 32 ≥ 2 ^ ringLog2 r)

/-- How the writing of a record ends (R421): its slot is written, it meets a full or disabled queue or a slot that does not translate,
or its slot lies at a lender, in a locked unit, or on a page that the host has still to answer for. -/
inductive Posted where
  | done (s : State)
  | refused (s : State)
  | later (s : State)

/-- The address of a ring's slot (R421). -/
def ringSlot (reg : W64) (widx : Nat) : Nat := ringBase reg + 64 * (widx % 2 ^ ringLog2 reg)

/-- A record written into a ring of partition `p` that `behind` records go before (R420, R421). The supervisor event queue, p = 255, lies
in host memory, at any address of its 57 bits. -/
def ringWrite (s : State) (p : Nat) (reg : W64) (widx ridx behind : Nat) (bytes : List Byte) : Posted :=
  if !ringEnabled reg || ringFull reg (widx + behind) ridx then .refused s
  else if p = 255 then .done { s with mem := Memory.writeBytes s.mem (2 * 2 ^ 48 + ringSlot reg widx) bytes }
  else if behind ≠ 0 then .later s
  else
    match translate s p (BitVec.ofNat 64 (ringSlot reg widx)) .write with
    | (.ok _ t, s) =>
      (match resolve s t with
       | .at pa => .done { s with mem := Memory.writeBytes s.mem pa bytes }
       | _ => .later s)
    | (.wait, s) => .later s
    | (_, s) => .refused s

/-- An event record has been written: the index moves on, and the message is raised (R421). -/
def State.eventPosted (s : State) (p : Nat) : State :=
  let u := s.partAt p
  (s.setPart p { u with eqwidx := (u.eqwidx + 1) % 2 ^ 32 }).msix (2 * p + 1)

/-- An event record is dropped and counted (R421). -/
def State.eventDropped (s : State) (p : Nat) : State :=
  let u := s.partAt p
  s.setPart p { u with eqovfl := min (u.eqovfl + 1) (2 ^ 32 - 1) }

/-- An event record is posted, or dropped and counted, or waits for its slot (R421, R423). -/
def postEvent (s : State) (r : Report) : State :=
  let p := r.part
  let u := s.partAt p
  let bytes := r.bytes s.cycleReg
  match ringWrite s p u.eqbase u.eqwidx u.eqridx u.events.length bytes with
  | .done s => s.eventPosted p
  | .refused s => s.eventDropped p
  | .later s => let u := s.partAt p; s.setPart p { u with events := u.events ++ [bytes] }

/-- A trap record has been written: the index moves on, and the message is raised (R421). -/
def State.trapPosted (s : State) (p : Nat) (rest : List WaitingRecord) : State :=
  let u := s.partAt p
  (s.setPart p { u with fqwidx := (u.fqwidx + 1) % 2 ^ 32, waiting := rest }).msix (2 * p)

/-- The first waiting trap record is written, or goes on waiting (R421): `rest` are the records after it. -/
def offerTrap (s : State) (p : Nat) (w : WaitingRecord) (rest : List WaitingRecord) : State × Bool :=
  let u := s.partAt p
  let keep (s : State) (soon : Bool) : State := let u := s.partAt p; s.setPart p { u with waiting := { w with soon := soon } :: rest }
  match ringWrite s p u.fqbase u.fqwidx u.fqridx 0 w.bytes with
  | .done s => (s.trapPosted p rest, true)
  | .refused s => (keep s false, false)
  | .later s => (keep s true, false)

/-- A trap record is posted, or waits for room in order of arrival (R421). -/
def postTrap (s : State) (p : Nat) (w : WaitingRecord) : State :=
  let u := s.partAt p
  if u.waiting ≠ [] then s.setPart p { u with waiting := u.waiting ++ [w] } else (offerTrap s p w []).1

/-- Waiting trap records are tried again, oldest first, until one does not post (R421). -/
def retryTraps (s : State) (p : Nat) : Nat → State
  | 0 => s
  | n + 1 =>
    match (s.partAt p).waiting with
    | [] => s
    | w :: rest => let r := offerTrap s p w rest; if r.2 then retryTraps r.1 p n else r.1

/-- One atomic read-modify-write of a completion counter (R111): 1 more in COUNT, and ERR when `err`. -/
def counterNext (old : Nat) (err : Bool) : Nat :=
  (old % 2 ^ 63 + 1) % 2 ^ 63 + (if err || decide (old ≥ 2 ^ 63) then 2 ^ 63 else 0)

/-- Undo-log entries whose older vector instructions have all committed are freed, their XFLAGS bits kept (R143). -/
def Grp.freeUndo (g : Grp) : Grp :=
  let live (u : Nat × Undo) : Bool := g.vq.any (fun e => e.id < u.1)
  let freed := g.undo.filter (fun u => !live u)
  { g with undo := g.undo.filter live, xflags := loggedFlags g.xflags freed }

/-- One undo-log entry taken back (R144). -/
def Grp.takeBack (g : Grp) : Undo → Grp
  | .reg n old => g.setReg n old
  | .flags _ => g
  | .drm old => { g with drm := old }

/-- A squashed vector-queue entry lowers its flags and counter (R144, R151). -/
def Grp.squash (g : Grp) (e : VEntry) : Grp :=
  let g := g.lowerFlags e.flags
  match e.path with
  | some p => { g.lower p e.id with cps := if p = .cp then g.cps - 1 else g.cps }
  | none => g

/-- The path a buffered action raised (R150). -/
def Buffered.path : Buffered → Option Path
  | .store _ _ | .flush _ => some .st
  | .scratch _ _ _ => some .sp
  | .invalidate => none

/-- A discarded store-buffer entry lowers its counter (R144). -/
def Grp.squashStore (g : Grp) (e : StoreEntry) : Grp :=
  match e.act.path with
  | some p => g.lower p e.id
  | none => g

/-- Roll-back to VCOMMIT (R144, R145): what the control thread did beyond it is taken back, a clause fetch under way among
it: the answer to a dword asked of a lender is then no longer waited for. -/
def Grp.rollBack (g : Grp) : Grp :=
  let older (stamp : Nat) : Bool := g.vq.any (fun e => e.id < stamp)
  let young := g.stores.filter (fun e => older e.stamp)
  let g' := g.vq.foldl Grp.squash g
  let g' := young.foldl Grp.squashStore g'
  let g' := g.undo.reverse.foldl (fun h u => h.takeBack u.2) g'
  { g' with
    vq := [], undo := [], form := none
    stores := g.stores.filter (fun e => !older e.stamp)
    loads := g.loads.filter (fun l => !older l.stamp)
    readAhead := []
    gen := g.gen + 1
    pc := g.vcommit, hdr := g.vcommitHdr, clause := [], midClause := decide (g.vcommit ≠ g.vcommitHdr)
    partly := [], asked := none }

/-- Requests of a group that still wait in a reservation table leave it (R144, R261, R270). -/
def State.squashRequests (s : State) (tag : Nat) (ids : List Nat) : State :=
  let c := clusterOf (tag / 16)
  let u := s.clusterAt c
  s.setCluster c { u with table := u.table.filter (fun e => !(e.gtag = tag ∧ ids.contains e.id)) }

/-- Roll-back of a resident group (R144). -/
def State.rollBack (s : State) (tag : Nat) : State :=
  match s.grp tag with
  | none => s
  | some g =>
    let s := s.setGrp tag g.rollBack
    if g.vq = [] then s else s.squashRequests tag (g.vq.map (fun e => e.id))

/-- TCAUSE at a trap: TACT set (R417, R418). -/
def tcauseOf (i : TrapInfo) (plev : Nat) : W64 :=
  BitVec.ofNat 64 (i.cause % 256 + i.detail % 2 ^ 16 * 2 ^ 8 + plev % 4 * 2 ^ 24 + 2 ^ 31
    + i.elem % 2 ^ 11 * 2 ^ 32 + i.lbid % 2 ^ 12 * 2 ^ 43)

/-- Cause NESTED of R415, from the inner trap. -/
def nestedOf (i : TrapInfo) : TrapInfo := { i with cause := 0x0B, detail := i.cause % 256 + i.detail % 256 * 256 }

/-- `park(g, cause)` of R418: a trap record with a fresh token, and the group PARKED at the trap point. -/
def park (s : State) (tag : Nat) (g : Grp) (i : TrapInfo) (pc hdr : W64) : State :=
  let token := s.nextToken
  let r : Report :=
    { kind := 1, cause := i.cause, detail := i.detail, part := g.part, plev := g.level.num, gtag := tag
      token := token, launch := g.launch % 2 ^ 32, pc := pc, hdr := hdr, addr := i.addr
      a0 := i.elem % 2 ^ 11 + i.lbid % 2 ^ 12 * 2 ^ 12 }
  let g := { g with
    run := .parked token, token := token, pc := pc, hdr := hdr, clause := [], midClause := decide (pc ≠ hdr) }
  let s := { s with nextToken := token + 1 }.setGrp tag g
  postTrap s g.part { gtag := tag, token := token, bytes := r.bytes s.cycleReg }

/-- TAKING A TRAP (R418), one operation for every cause: roll-back, then the handler at TVEC with the trap registers
written and the level raised to supervisor, or PARKED when TVEC = 0 or the group is in its handler already. -/
def takeTrap (s : State) (tag : Nat) (i : TrapInfo) (pc hdr : W64) : State :=
  let s := s.rollBack tag
  match s.grp tag with
  | none => s
  | some g =>
    if g.tact then park s tag g (nestedOf i) pc hdr
    else
      let tvec := (s.partAt g.part).tvec
      if tvec ≠ 0 then
        s.setGrp tag { g with
          tepc := pc, thdr := hdr, tcause := tcauseOf i g.level.num, taddr := i.addr, trapForm := g.formId
          level := .supervisor, pc := tvec, hdr := tvec, clause := [], midClause := false }
      else park s tag g i pc hdr

/-- RETURN FROM A TRAP (R434): the level and place that the trap registers hold; they keep their values but TACT. -/
def Grp.returnFromTrap (g : Grp) : Grp :=
  { g with
    level := Level.ofNum (bitsOf g.tcause.toNat 24 2)
    tcause := g.tcause &&& ~~~(0x80000000 : W64), formId := g.trapForm
    pc := g.tepc, hdr := g.thdr, clause := [], midClause := decide (g.tepc ≠ g.thdr) }

end Sys2Proof.Machine
end

