-- ==== Sys2Proof/Machine/Flags.lean ====
section
/-!
DEFINITION. XFLAGS (R41, R43, R143, R194), the exception mask of XM (R195) and the completion flags that CF names (R47,
R48).
-/
namespace Sys2Proof.Machine

/-- The XFLAGS bits set already that no `setsr` of XFLAGS still to be executed will clear: with one in the queue, those of the scalar
instructions after it (R41, R43). -/
def Grp.keptFlags (g : Grp) : Nat :=
  match (g.vq.filter (fun e => match e.instr with | .setsr f => decide (f.index = 0x004) | _ => false)).getLast? with
  | none => g.xflagsNow
  | some e => loggedFlags 0 (g.undo.filter (fun u => decide (e.id < u.1)))

/-- The XFLAGS bits that a scalar instruction sets at issue (R159): logged while older vector instructions are uncommitted,
so that a roll-back takes exactly them back (R143). -/
def Grp.scalarFlags (g : Grp) (bits : Nat) : Grp :=
  if Nat.lor g.keptFlags bits = g.keptFlags then g
  else if g.vq = [] then { g with xflags := Nat.lor g.xflags bits }
  else { g with undo := g.undo ++ [(g.nextId, .flags bits)] }

/-- The XFLAGS bits that committed vector work sets (R194). -/
def Grp.vectorFlags (g : Grp) (bits : Nat) : Grp := { g with xflags := Nat.lor g.xflags bits }

/-- A scalar register written by the control thread, its old value logged while older vector instructions are uncommitted;
writes to s0 are neither made nor logged (R34, R143). -/
def Grp.writeReg (g : Grp) (n : Nat) (x : W64) : Grp :=
  if n = 0 then g
  else if g.vq = [] then g.setReg n x
  else { g.setReg n x with undo := g.undo ++ [(g.nextId, .reg n (g.reg n))] }

/-- The union of the flags of the elements below VTAIL (R194). -/
def unionFlags (vtail : Nat) : List (Nat × Nat) → Nat
  | [] => 0
  | (e, fl) :: t => if e < vtail then Nat.lor fl (unionFlags vtail t) else unionFlags vtail t

/-- The exception mask: bit e for an active element below VTAIL that raised NV, DZ, OF, UF or SI (R195). -/
def exceptionMask (vtail : Nat) (xfl : List (Nat × Nat)) : Mask :=
  xfl.foldl (fun m p => if p.1 < vtail ∧ Nat.land p.2 47 ≠ 0 then putBit m p.1 true else m) 0

/-- The flags that the CF bits of a word name, by the clause header that holds it (R45, R47). -/
def cfFlags (header : W64) (cf : Nat) : List Nat :=
  (if cf % 2 = 1 then [bitsOf header.toNat 44 4] else []) ++ (if cf / 2 = 1 then [bitsOf header.toNat 39 4] else [])

end Sys2Proof.Machine
end

