-- ==== Sys2Proof/Machine/Operands.lean ====
section
/-!
DEFINITION. Operand forms: scalar operands, element types in force (R69), spans (R177), the lists of active elements (R176),
and the effective addresses of scalar and vector memory words (R161, R326).
-/
namespace Sys2Proof.Machine

/-- The sign-extended 20-bit immediate (R154). -/
def immS {n : Nat} (imm : BitVec n) : W64 := imm.signExtend 64

/-- The width in bits of an EW or W code above 000 (R51, R161). -/
def widthCode (ew : Nat) : Nat := 4 * 2 ^ ew

/-- The type in force of a word with TY and EW, under VCONF.FMT (R69); none where no type is (reason 0x07). -/
def typeInForce (fmt ty ew : Nat) : Option Nat :=
  if ty ≠ 15 then some ty
  else if ew = 0 || widthCode ew = typeWidth fmt then some fmt
  else if fmt = 10 || fmt ≥ 12 then none
  else if fmt < 4 then some (ew - 1)
  else if fmt < 8 then some (4 + (ew - 1))
  else match ew with
    | 1 => some 11
    | 2 => some 9
    | 3 => some 8
    | _ => none

/-- The smallest power of two at least `n`, up to 64. -/
def powerAbove (n : Nat) : Nat :=
  if n ≤ 1 then 1 else if n ≤ 2 then 2 else if n ≤ 4 then 4 else if n ≤ 8 then 8
  else if n ≤ 16 then 16 else if n ≤ 32 then 32 else 64

/-- How many registers `count` elements of width `w` span (R177). -/
def Grp.span (g : Grp) (w count : Nat) : Nat := powerAbove (ceilDiv (count * w) (32 * g.regWords))

/-- The ILLEGAL trap with a reason (R67, R415). -/
def illegal (reason : Nat) : TrapInfo := { cause := 0x01, detail := reason }

/-- The span check of an operand (R177): the trap that it takes, if any. -/
def Grp.spanTrap (g : Grp) (x k : Nat) : Option TrapInfo :=
  if x % k ≠ 0 then some (illegal 4) else if x + k - 1 ≥ g.nreg then some (illegal 5) else none

/-- The first trap of a list of checks. -/
def firstTrap : List (Option TrapInfo) → Option TrapInfo
  | [] => none
  | some t :: _ => some t
  | none :: r => firstTrap r

/-- The lowest ILLEGAL reason among the traps of checks made together (R67, R177). -/
def lowestTrap (l : List (Option TrapInfo)) : Option TrapInfo :=
  if l.any (fun t => t = some (illegal 4)) then some (illegal 4) else firstTrap l

/-- The active elements, in ascending order (R176). -/
def Grp.activeList (g : Grp) (mreg : Nat) : List Nat := (upTo g.vl).filter (fun e => g.active mreg e)

/-- The elements a memory word accesses: active and below VTAIL (R327, R356). -/
def Grp.accessed (g : Grp) (mreg : Nat) : List Nat := (g.activeList mreg).filter (fun e => e < g.vtail)

/-- The rounding mode of an RM field under a dynamic mode (R173). -/
def roundMode (rm drm : Nat) : Nat := if rm = 0 then drm else rm

/-- A signed 32-bit element of an index operand (R326). -/
def Grp.index (g : Grp) (vi e : Nat) : Int := toSigned 32 (g.elem vi 32 e)


end Sys2Proof.Machine

namespace Sys2Proof

open Machine

/-- The effective address of a scalar memory word: s[sa] + sign_extend(imm20) modulo 2^64 (R161). -/
def FS.addr (g : Grp) (f : FS) : W64 := g.reg f.sa.toNat + immS f.imm

/-- The element width of an FM word: EW, or the width of VCONF.FMT (R326). -/
def FM.esize (g : Grp) (f : FM) : Nat := if f.ew = 0 then typeWidth g.fmt else widthCode f.ew.toNat

/-- OFF12 in elements, as a byte offset (R325, R326). -/
def FM.offset (f : FM) (esize : Nat) : Int := (f.imm.extractLsb' 0 12).toInt * (esize / 8 : Nat)

/-- X of an FM word: H or RET (R325). -/
def FM.x (f : FM) : Bool := f.imm.getLsbD 12

/-- addr(e) of an FM word, exact (R326): base and stride as read at issue. -/
def FM.addrExact (g : Grp) (f : FM) (base stride : W64) (esize e : Nat) : Int :=
  let off := f.offset esize
  match f.am.toNat with
  | 0 => base.toNat + off + (e * (esize / 8) : Nat)
  | 1 => base.toNat + off + e * stride.toInt
  | _ => base.toNat + off + g.index f.vi.toNat e

/-- addr(e) of a global FM word, modulo 2^64 (R326). -/
def FM.addr (g : Grp) (f : FM) (base stride : W64) (esize e : Nat) : W64 :=
  BitVec.ofInt 64 (f.addrExact g base stride esize e)

end Sys2Proof
end

