-- ==== Sys2Proof/Machine/Pipeline.lean ====
section
/-!
DEFINITION. How the control thread issues a word (R137-R151): the decode checks of R67, the waits of R142, R147, R148 and
R48, the precise traps of R146, and the entry of a vector-side word into the vector queue.
A word that must wait leaves the state as it is; its group tries it again at its next turn.
-/
namespace Sys2Proof.Machine

/-- How an attempt to issue a word ends. -/
inductive Issue where
  /-- the word completes; the next word follows -/
  | done (s : State)
  /-- the word transfers control -/
  | jump (s : State) (target : W64)
  /-- the control thread stalls at the word -/
  | stall (s : State)
  /-- the word raises a precise trap (R146) -/
  | trap (s : State) (info : TrapInfo)
  /-- the word has set the group's place itself -/
  | gone (s : State)

/-- What a control-side word asks before it executes. -/
structure Needs where
  check : Check
  /-- least level that may execute it (R2) -/
  level : Level := .user
  /-- scalar registers it reads -/
  reads : List (BitVec 6) := []
  /-- scalar registers it writes -/
  writes : List (BitVec 6) := []
  /-- it waits until the vector queue holds no older entry (R142) -/
  drained : Bool := false
  /-- a memory instruction of R135 -/
  memory : Bool := false
  /-- legal in the concurrent class alone (reason 0x09) -/
  concurrent : Bool := false

/-- The least of a list of reasons. -/
def leastReason : List Nat → Option Nat
  | [] => none
  | r :: t => match leastReason t with
    | none => some r
    | some q => some (min r q)

/-- The PRIV trap (R2, R415). -/
def privTrap : TrapInfo := { cause := 0x03 }

/-- The trap of the decode checks on a word (R67): the level first, then the lowest reason; a register that the launch did
not allocate is reason 0x05 (R35). -/
def Grp.wordTrap (g : Grp) (c : Check) (level : Level) (concurrent : Bool) : Option TrapInfo :=
  if g.level.num < level.num then some privTrap
  else
    (leastReason (c.reasons ++ failIf (c.vregs.any (fun v => g.nreg ≤ v) || c.accs.any (fun a => g.nacc ≤ a)) 5
      ++ failIf (concurrent && decide (g.cls ≠ 0)) 9)).map illegal

/-- Any of the registers named waits for a value (R147). -/
def Grp.anyPending (g : Grp) (rs : List (BitVec 6)) : Bool := rs.any (fun r => g.loadPending r.toNat)

/-- An access that nothing younger may pass has not completed (R142). -/
def Grp.blocked (g : Grp) : Bool := g.loads.any (fun l => l.block) || g.stores.any (fun e => e.block)

/-- Memory-bound: LD plus ST above 32 (R135). -/
def Grp.memoryBound (g : Grp) : Bool := decide (g.counter .ld + g.counter .st > 32)

/-- cap(level) of R135. -/
def congestionCap (level : Nat) : Nat :=
  match level with
  | 0 => 16 | 1 => 12 | 2 => 10 | 3 => 8 | 4 => 6 | 5 => 4 | 6 => 2 | _ => 1

/-- The group may issue a memory instruction under the cap (R136). -/
def memoryAllowed (s : State) (tag : Nat) (g : Grp) : Bool :=
  !g.memoryBound || (s.coreAt g.core).permitted.contains tag

/-- A group that has just become memory-bound receives permission if fewer than cap groups hold it (R136). DESIGN CHOICE (log entry
35): one that ceases to be memory-bound keeps its permission till the next publication. -/
def grantPermission (s : State) (tag : Nat) (before after : Grp) : State :=
  let u := s.coreAt after.core
  if before.memoryBound || !after.memoryBound || u.permitted.contains tag
      || decide (congestionCap (s.dieAt (dieOf after.core)).congestion ≤ u.permitted.length) then s
  else s.setCore after.core { u with permitted := u.permitted ++ [tag] }

/-- The next word of the clause, or the next clause when this one is used up (R44). -/
def Grp.advance (g : Grp) : Grp :=
  let g := { g with pc := g.pc + 8, nextId := g.nextId + 1 }
  if (g.pc - g.hdr).toNat / 8 < g.clause.length then g
  else { g with clause := [], midClause := false, hdr := g.pc }

/-- The clause at `target` follows (R165). -/
def Grp.jumpTo (g : Grp) (target : W64) : Grp :=
  { g with pc := target, hdr := target, clause := [], midClause := false, nextId := g.nextId + 1 }

/-- The address of the clause after this one: H + 8·(LEN + 1) (R165). -/
def Grp.nextClause (g : Grp) : W64 := g.hdr + BitVec.ofNat 64 (8 * g.clause.length)

/-- What a release (ORD 2 or 3) and an acquire (ORD 1 or 3) of the group leave of the bytes that forms wrote over (R245): a
release makes the writes of older forms known, and after an acquire no read returns what they wrote over (R383-R385,
log entry 24). -/
def Grp.afterOrd (g : Grp) (ord : Nat) : Grp :=
  let g := if ord ≥ 2 then { g with formPast := g.formPast.map (fun h => { h with known := true }) } else g
  if ord % 2 = 1 then { g with formPast := g.formPast.filter (fun h => !h.known) } else g

/-- A precise trap of a word: taken once every older instruction has committed, and the word waits till then (R68, R146). -/
def controlTrap (s : State) (tag : Nat) (g : Grp) (info : TrapInfo) : State :=
  if g.vq = [] then takeTrap s tag info g.pc g.hdr else s

/-- Token buckets are enforced (R321). -/
def State.tokensOn (s : State) : Bool := s.bandwidth.getLsbD 63

/-- A core's port has tokens for `n` sector requests (R322). -/
def State.hasTokens (s : State) (core n : Nat) : Bool :=
  !s.tokensOn || decide (n ≤ (s.coreAt core).bucket + (s.coreAt core).credit)

/-- `s` with the tokens of `n` sector requests spent (R322). -/
def State.spend (s : State) (core n : Nat) : State :=
  let u := s.coreAt core
  if s.tokensOn then s.setCore core { u with bucket := u.bucket - (n - u.credit), credit := u.credit - n } else s

/-- `s` where a request waits at a core's port: it holds the tokens that the bucket had (R322, R323). -/
def State.askPort (s : State) (core : Nat) : State :=
  let u := s.coreAt core
  s.setCore core { u with bucket := 0, credit := u.bucket + u.credit, asking := true }

/-- A word whose `n` sector requests pass its core's port, or wait there (R322). -/
def State.atPort (s : State) (core n : Nat) (go : State → Issue) : Issue :=
  if s.hasTokens core n then go (s.spend core n) else .stall (s.askPort core)

/-- The same of what an event or a turn does; none where it already waits and the bucket is empty. -/
def State.ported (s : State) (core n : Nat) (go : State → Option State) : Option State :=
  if s.hasTokens core n then go (s.spend core n)
  else if (s.coreAt core).asking && decide ((s.coreAt core).bucket = 0) then none
  else some (s.askPort core)

/-- The undo log holds more than its entries (R143). -/
def undoOverflow (s : State) (tag : Nat) : Bool :=
  match s.grp tag with
  | some g => decide (g.undo.length > Config.undoDepth)
  | none => false

/-- The end of an attempt to issue; a word that would log more than the undo log holds stalls (R143). -/
def Issue.finish (s : State) (tag : Nat) (g : Grp) : Issue → State
  | .done s' => if undoOverflow s' tag then s else s'.modGrp tag Grp.advance
  | .jump s' target => if undoOverflow s' tag then s else s'.modGrp tag (fun g => g.jumpTo target)
  | .stall s' => s'
  | .trap s' info => controlTrap s' tag g info
  | .gone s' => s'

/-- The ORD of a vector-side memory word (R386). -/
def ordOf : Instr → Nat
  | .vld f | .vlds f | .vldp f | .vst f | .vsts f | .vstp f | .vaadd f | .vafadd f | .vaand f | .vaor f | .vaxor f | .vamin f
  | .vamax f | .vaswap f | .vacas f | .rld f | .rst f | .raadd f | .rafadd f | .raor f | .ramin f | .ramax f | .raswap f
  | .rcas f => f.ord.toNat
  | _ => 0

/-- A vector-side word with ORD acquire (R386). -/
def acquires (i : Instr) : Bool := decide (ordOf i % 2 = 1)

/-- A vector-side acquire has not been performed: no younger access is (R384, R386). -/
def Grp.acquiring (g : Grp) : Bool := g.vq.any (fun e => acquires e.instr) || g.flights.any (fun f => acquires f.entry.instr)

/-- An older acquire of the group is under way: no younger access is performed (R384, R386). -/
def Grp.acquireOlder (g : Grp) (id : Nat) : Bool :=
  g.flights.any (fun f => decide (f.entry.id < id) && acquires f.entry.instr)

/-- A control-side word waits (R136, R142, R147, R384). -/
def Needs.waits (n : Needs) (s : State) (tag : Nat) (g : Grp) : Bool :=
  g.blocked || g.anyPending n.reads || g.anyPending n.writes || (n.drained && decide (g.vq ≠ []))
    || (n.memory && !memoryAllowed s tag g) || ((n.memory || n.drained) && g.acquiring)

/-- ISSUING A CONTROL-SIDE WORD (R137-R147) for the group whose turn it is: decode checks, waits, then its effect. -/
def issueControl (n : Needs) (body : State → Nat → Grp → Issue) (s : State) : State :=
  let tag := s.sched.cur
  match s.grp tag with
  | none => s
  | some g =>
    if g.run ≠ .running then s
    else match g.wordTrap n.check n.level n.concurrent with
      | some info => controlTrap s tag g info
      | none => if n.waits s tag g then s else (body s tag g).finish s tag g

/-- What a vector-side word asks at issue. -/
structure VNeeds where
  /-- scalar registers whose values the word takes with it into the queue (R201, R227) -/
  reads : List (BitVec 6) := []
  /-- a scalar destination that is marked pending (R147) -/
  dest : Option (BitVec 6) := none
  /-- CF (R47) -/
  cf : BitVec 2 := 0
  /-- the in-flight counter it raises (R150) -/
  path : Option Path := none
  /-- a memory instruction of R135 -/
  memory : Bool := false
  /-- the second word of a nested pair (R238) -/
  inner : Option (Instr × List (BitVec 6)) := none

/-- A counter that the word would raise stands at 65,535 (R151), or a flag that it names at 63 (R48). -/
def Grp.countsFull (g : Grp) (path : Option Path) (flags : List Nat) : Bool :=
  (match path with
   | some p => decide (g.counter p ≥ 65535)
   | none => false) || flags.any (fun f => decide (g.flag f ≥ 63))

/-- The header of the clause at hand. -/
def Grp.header (g : Grp) : W64 := g.clause.headD 0

/-- The entry that a vector-side word makes in the vector queue (R140). -/
def Grp.entryOf (g : Grp) (i : Instr) (n : VNeeds) : VEntry :=
  { id := g.nextId, pc := g.pc, hdr := g.hdr, instr := i
    ops := n.reads.map (fun r => g.reg r.toNat)
    flags := cfFlags g.header n.cf.toNat
    path := n.path
    cps := g.cps
    inner := n.inner.map (fun p => (p.1, p.2.map (fun r => g.reg r.toNat))) }

/-- The group after a vector-side word has entered the queue: its flags and counter raised, its scalar destination marked
pending (R48, R140, R147, R151). -/
def Grp.enqueue (g : Grp) (i : Instr) (n : VNeeds) : Grp :=
  let e := g.entryOf i n
  let g := { g.raiseFlags e.flags with vq := g.vq ++ [e] }
  let g := match n.path with
    | some p => { g.raise p e.id with cps := if p = .cp then g.cps + 1 else g.cps }
    | none => g
  match n.dest with
  | some d =>
    if d = 0 then g
    else
      let l : Load :=
        { id := e.id, stamp := e.id + 1, pc := e.pc, hdr := e.hdr, sd := d.toNat, gen := g.gen, value := none }
      { g with loads := g.loads ++ [l] }
  | none => g

/-- A vector-side word waits at issue (R48, R136, R140, R147, R151). -/
def VNeeds.waits (n : VNeeds) (s : State) (tag : Nat) (g : Grp) : Bool :=
  g.blocked || g.anyPending n.reads || (match n.dest with | some d => g.anyPending [d] | none => false)
    || (match n.inner with | some p => g.anyPending p.2 | none => false)
    || decide (g.vqUsed + (if n.inner.isSome then 2 else 1) > Config.vqDepth) || g.countsFull n.path (cfFlags g.header n.cf.toNat)
    || (n.memory && !memoryAllowed s tag g)

/-- ISSUING A VECTOR-SIDE WORD (R137, R139, R140) under the decode checks given: it takes an entry of the vector queue. -/
def issueChecked (c : Check) (i : Instr) (n : VNeeds) (s : State) : State :=
  let tag := s.sched.cur
  match s.grp tag with
  | none => s
  | some g =>
    if g.run ≠ .running then s
    else match g.wordTrap c .user false with
      | some info => controlTrap s tag g info
      | none =>
        if n.waits s tag g then s
        else
          let g' := (g.enqueue i n).advance
          grantPermission (s.setGrp tag (if n.inner.isSome then g'.advance else g')) tag g g'

/-- Issuing a vector-side word under its own decode checks. -/
def issueVector (i : Instr) (n : VNeeds) (s : State) : State := issueChecked i.check i n s

end Sys2Proof.Machine
end

