-- ==== Sys2Proof/Machine/Wire.lean ====
section
/-!
DEFINITION. The flits of 64 bytes that packets of the fabric are on the wire: requests and answers (R357), transfers (R407) and
coordination messages (R408) of a collective, byte by byte.
-/
namespace Sys2Proof.Machine

/-- Bytes filled up with zeros to whole flits (R357). -/
def wholeFlits (bs : List Byte) : List Byte := bs ++ List.replicate (ceilDiv bs.length 64 * 64 - bs.length) 0

/-- The EW code of OPS (R51, R357). -/
def ewCode (bits : Nat) : Nat := log2Floor bits - 2

/-- The first 16 bytes of every header (R357). -/
def commonHeader (kind ctl ops src dst ftag gtag seq : Nat) : List Byte :=
  toBytes 1 kind ++ toBytes 1 ctl ++ toBytes 1 ops ++ toBytes 1 0 ++ toBytes 2 src ++ toBytes 2 dst ++ toBytes 2 ftag
    ++ toBytes 2 gtag ++ toBytes 4 seq

/-- CTL: VC, ORDF, RET and AM (R357). -/
def packetCtl (p : Packet) : Nat := p.vc + 4 * p.ordf.toNat + 8 * p.ret.toNat + 16 * p.am

/-- OPS: FN, the EW code and U (R357). -/
def packetOps (p : Packet) : Nat := p.fn + 16 * ewCode p.esize + 128 * p.u.toNat

/-- MASK: bit e set for each element named (R357). -/
def maskBits (es : List Nat) : Nat := (es.map (fun e => 2 ^ e)).sum

/-- The header flit of a request, a response or an acknowledgement (R357). -/
def packetHeader (p : Packet) : List Byte :=
  commonHeader p.kind (packetCtl p) (packetOps p) p.src p.dst p.ftag p.gtag p.seq ++ toBytes 8 p.addr.toNat ++ toBytes 8 p.stride.toNat
    ++ toBytes 32 (maskBits p.mask)

/-- What follows the header: index words, then data, the new values after the expected ones (R357). -/
def packetPayload (p : Packet) : List Byte :=
  p.index.flatMap (fun x => toBytes 4 x.toNat) ++ p.data.flatMap (toBytes (p.esize / 8)) ++ p.data2.flatMap (toBytes (p.esize / 8))

/-- The bytes of a packet on the wire (R357). -/
def packetBytes (p : Packet) : List Byte := packetHeader p ++ wholeFlits (packetPayload p)

/-- Flits of a packet: the header, then index words and data in whole flits (R357). -/
def packetFlits (p : Packet) : Nat :=
  1 + ceilDiv (4 * p.index.length + p.esize / 8 * (p.data.length + p.data2.length)) 64

/-- The SIG dword (R407, R408). -/
def signatureDword (g : Signature) : Nat := g.crc + 2 ^ 32 * g.opc + 2 ^ 40 * g.typ

/-- The header flit of a transfer (R407). -/
def transferHeader (t : Transfer) : List Byte :=
  commonHeader 0x40 1 0 t.src t.dst t.ftag 0xFFFF t.seq ++ toBytes 8 t.addr.toNat ++ toBytes 4 t.data.length ++ toBytes 2 t.collid
    ++ toBytes 2 0 ++ toBytes 2 t.srank ++ toBytes 2 t.drank ++ toBytes 1 t.ddie ++ toBytes 3 0 ++ toBytes 8 t.inst.toNat
    ++ toBytes 8 (t.first + 2 ^ 16 * t.count + 2 ^ 33 * t.nmem) ++ toBytes 8 (signatureDword t.sig)

/-- The bytes of a transfer on the wire (R407). -/
def transferBytes (t : Transfer) : List Byte := transferHeader t ++ wholeFlits t.data

/-- The flit of a coordination message (R408). -/
def messageBytes (msg : Nat) (m : CollMsg) : List Byte :=
  commonHeader 0x41 0 0 m.src m.dst m.ftag 0xFFFF m.seq ++ toBytes 1 msg ++ toBytes 1 m.cause ++ toBytes 1 m.reason ++ toBytes 5 0
    ++ toBytes 4 ((m.sig.map (fun g => g.len)).getD 0) ++ toBytes 2 m.collid ++ toBytes 2 0 ++ toBytes 2 m.srank ++ toBytes 2 m.drank
    ++ toBytes 1 m.ddie ++ toBytes 3 0 ++ toBytes 8 m.inst.toNat ++ toBytes 8 (2 ^ 33 * m.nmem)
    ++ toBytes 8 ((m.sig.map signatureDword).getD 0)

end Sys2Proof.Machine
end

