-- ==== Sys2Proof/Machine/Fabric.lean ====
section
/-!
DEFINITION. Sending on the fabric (R357, R361-R364): sequence numbers, the ordered flag, the output ports, and the requests
that accesses to T3 pages turn into (R330, R371).
-/
namespace Sys2Proof.Machine

/-- Flits of what the device puts on a link. -/
def flitsOf : Sent → Nat
  | .packet p => packetFlits p
  | .lease _ _ _ => 1
  | .checkpoint d => 1 + ceilDiv d.len 64
  | .transfer t => 1 + ceilDiv t.data.length 64
  | .message _ _ => 1

/-- The virtual-channel tier of each kind of traffic (R361, R407). -/
def tierOf : Sent → Nat
  | .packet p => p.vc
  | .lease _ _ _ => 0
  | .checkpoint _ => 2
  | .transfer _ => 1
  | .message _ _ => 0

/-- The value of an answer of one element or more: the data in ascending order, each of `bits` bits. -/
def joinData (bits : Nat) (data : List Nat) : Nat := data.foldr (fun x a => x % 2 ^ bits + 2 ^ bits * a) 0

/-- The address of an element (R326, R357). -/
def packetAddr (p : Packet) (e : Nat) : W64 :=
  match p.am with
  | 0 => p.addr + BitVec.ofNat 64 (e * (p.esize / 8))
  | 1 => p.addr + BitVec.ofNat 64 e * p.stride
  | _ => p.addr + (p.index.getD (p.mask.idxOf e) 0).signExtend 64

/-- Output ports of the device (R25). -/
abbrev portCount : Nat := 16

/-- What members of a collective on this device send each other, and what acknowledges it: it crosses the die-to-die links (R407,
R408). -/
def staysInside (device : Nat) : Sent → Bool
  | .transfer t => decide (t.dst = device)
  | .message _ m => decide (m.dst = device)
  | .packet p => decide (p.kind = 0x11) && decide (p.dst = device) && decide (p.gtag = 0xFFFF)
  | _ => false

/-- A packet joins its tier at a port of the device's choosing, for a spine of its choosing, of spine group `group` where one is
named (R355, R361, R362); what stays inside the device joins no port. -/
def State.transmit (s : State) (what : Sent) (group : Option Nat := none) : State :=
  if staysInside s.fabric.device what then { s with fabric := { s.fabric with local_ := s.fabric.local_ ++ [what] } }
  else
    let (k, s) := s.choose portCount
    let (x, s) := s.free
    let p := FMap.get {} s.fabric.ports k
    let w : Waiting :=
      { what := what, left := flitsOf what, reserve := decide (tierOf what = 2)
        spine := match group with | some q => 4 * x + q | none => x }
    let p := match tierOf what with
      | 0 => { p with vc0 := p.vc0 ++ [w] }
      | 1 => { p with vc1 := p.vc1 ++ [w] }
      | _ => { p with vc2 := p.vc2 ++ [w] }
    { s with fabric := { s.fabric with ports := FMap.set {} s.fabric.ports k p } }

/-- The word of a group behind a request, which ORDF orders (R362): the group and the word's number in program order. -/
def Asker.word : Asker → Option (Nat × Nat)
  | .vector g id | .load g id | .store g id => some (g, id)
  | _ => none

/-- The word behind one request was issued before the one behind another, by the same group (R362). -/
def Asker.before (a b : Asker) : Bool :=
  match a.word, b.word with
  | some x, some y => decide (x.1 = y.1) && decide (x.2 < y.2)
  | _, _ => false

/-- A request may be sent: fewer than 65,536 to its destination are unanswered, and under ORDF every remote request that its group
issued earlier to the same destination has been answered (R362, R363). `earlier` are the requests before it. -/
def Request.mayGo (earlier : List Request) (r : Request) : Bool :=
  decide ((earlier.filter (fun q => q.dst = r.dst && q.sent)).length < 65536)
    && (!r.ordf || !earlier.any (fun q => q.dst = r.dst && q.who.before r.who))

/-- The requests that may now be sent, marked, and a list of them. -/
def markSendable (cycle : Nat) : List Request → List Request → List Request × List Request
  | _, [] => ([], [])
  | before, r :: rest =>
    if r.sent || !r.mayGo before then
      let q := markSendable cycle (before ++ [r]) rest
      (r :: q.1, q.2)
    else
      let r := { r with sent := true, at_ := cycle }
      let q := markSendable cycle (before ++ [r]) rest
      (r :: q.1, r :: q.2)

/-- Every request that may be sent is sent (R362, R363). -/
def State.release (s : State) : State :=
  let q := markSendable s.cycle [] s.fabric.requests
  q.2.foldl (fun s r => s.transmit r.what r.group) { s with fabric := { s.fabric with requests := q.1 } }

/-- The packet with its sequence number. -/
def withSeq (n : Nat) : Sent → Sent
  | .packet p => .packet { p with seq := n }
  | .transfer t => .transfer { t with seq := n }
  | .message k m => .message k { m with seq := n }
  | x => x

/-- A request is made: it takes the next SEQ of its destination (R363), and is sent as soon as it may be. -/
def State.request (s : State) (r : Request) : State :=
  let n := FMap.get 0 s.fabric.seqs r.dst
  let r := { r with seq := n, what := withSeq n r.what, sent := false, resends := 0 }
  let f := s.fabric
  State.release { s with fabric := { f with
    seqs := FMap.set 0 f.seqs r.dst ((n + 1) % 2 ^ 32), requests := f.requests ++ [r] } }

/-- The SEQ that the next request to a destination takes. -/
def State.nextSeq (s : State) (dst : Nat) : Nat := FMap.get 0 s.fabric.seqs dst

/-- The lender of a lease that this device borrows. -/
def lenderOf (s : State) (lease : Nat) : Nat :=
  match s.leases.find? (fun e => e.borrower && decide (e.number = lease)) with
  | some e => e.peer
  | none => 0

/-- The request packet of one access to a T3 page (R330, R357): a load, store, atomic or `cas` of one element at an offset
of the lease's region. -/
def leasedPacket (s : State) (kind fn bits lease offset gtag : Nat) (ret : Bool) (data data2 : List Nat) : Packet :=
  { kind := kind, vc := if kind = 2 then 1 else 0, ret := ret, fn := fn, esize := bits, src := s.fabric.device
    dst := lenderOf s lease, ftag := lease, leased := true, gtag := gtag, addr := BitVec.ofNat 64 offset, mask := [0]
    data := data, data2 := data2 }

end Sys2Proof.Machine
end

