-- ==== Sys2Proof/Machine/ScalarInt.lean ====
section
/-!
DEFINITION. Scalar integer and address instructions (R154-R156, 07_control_thread.md).
-/
namespace Sys2Proof.Machine

/-- A word that writes one scalar register with a value computed from the group's registers (R138, R143, R154). -/
def scalarResult (n : Needs) (sd : BitVec 6) (value : Grp → W64) (s : State) : Result :=
  .next (issueControl n (fun s tag g => .done (s.setGrp tag (g.writeReg sd.toNat (value g)))) s)

/-- A three-register word of 0x00 (R155). -/
def alu (c : Check) (f : FS) (op : W64 → W64 → W64) (s : State) : Result :=
  scalarResult { check := c, reads := [f.sa, f.sb], writes := [f.sd] } f.sd
    (fun g => op (g.reg f.sa.toNat) (g.reg f.sb.toNat)) s

/-- An immediate word of 0x01 (R155). -/
def aluImm (c : Check) (f : FS) (op : W64 → W64 → W64) (s : State) : Result :=
  scalarResult { check := c, reads := [f.sa], writes := [f.sd] } f.sd (fun g => op (g.reg f.sa.toNat) (immS f.imm)) s

/-- A one-source word of 0x03 (R156). -/
def aluOne (c : Check) (f : FS) (op : W64 → W64) (s : State) : Result :=
  scalarResult { check := c, reads := [f.sa], writes := [f.sd] } f.sd (fun g => op (g.reg f.sa.toNat)) s

/-- div of R155. -/
def divS (x y : W64) : W64 := if y = 0 then 0xFFFFFFFFFFFFFFFF else x.sdiv y
/-- divu of R155. -/
def divU (x y : W64) : W64 := if y = 0 then 0xFFFFFFFFFFFFFFFF else x / y
/-- rem of R155. -/
def remS (x y : W64) : W64 := if y = 0 then x else x.srem y
/-- remu of R155. -/
def remU (x y : W64) : W64 := if y = 0 then x else x % y
/-- mulh of R155. -/
def mulHigh (x y : W64) : W64 := BitVec.ofInt 64 (x.toInt * y.toInt / 2 ^ 64)
/-- A shift count: y[5:0] (R155). -/
def shiftCount (y : W64) : Nat := y.toNat % 64
/-- slt of R155. -/
def lessS (x y : W64) : W64 := if x.slt y then 1 else 0
/-- sltu of R155. -/
def lessU (x y : W64) : W64 := if x < y then 1 else 0

/-- `add sd, sa, sb` (R155). -/
def execAdd (f : FS) (s : State) : Result := alu (Instr.add f).check f (fun x y => x + y) s

/-- `sub sd, sa, sb` (R155). -/
def execSub (f : FS) (s : State) : Result := alu (Instr.sub f).check f (fun x y => x - y) s

/-- `mul sd, sa, sb` (R155). -/
def execMul (f : FS) (s : State) : Result := alu (Instr.mul f).check f (fun x y => x * y) s

/-- `mulh sd, sa, sb` (R155). -/
def execMulh (f : FS) (s : State) : Result := alu (Instr.mulh f).check f (fun x y => mulHigh x y) s

/-- `div sd, sa, sb` (R155). -/
def execDiv (f : FS) (s : State) : Result := alu (Instr.div f).check f (fun x y => divS x y) s

/-- `divu sd, sa, sb` (R155). -/
def execDivu (f : FS) (s : State) : Result := alu (Instr.divu f).check f (fun x y => divU x y) s

/-- `rem sd, sa, sb` (R155). -/
def execRem (f : FS) (s : State) : Result := alu (Instr.rem f).check f (fun x y => remS x y) s

/-- `remu sd, sa, sb` (R155). -/
def execRemu (f : FS) (s : State) : Result := alu (Instr.remu f).check f (fun x y => remU x y) s

/-- `and sd, sa, sb` (R155). -/
def execAnd (f : FS) (s : State) : Result := alu (Instr.and f).check f (fun x y => x &&& y) s

/-- `or sd, sa, sb` (R155). -/
def execOr (f : FS) (s : State) : Result := alu (Instr.or f).check f (fun x y => x ||| y) s

/-- `xor sd, sa, sb` (R155). -/
def execXor (f : FS) (s : State) : Result := alu (Instr.xor f).check f (fun x y => x ^^^ y) s

/-- `sll sd, sa, sb` (R155). -/
def execSll (f : FS) (s : State) : Result := alu (Instr.sll f).check f (fun x y => x <<< shiftCount y) s

/-- `srl sd, sa, sb` (R155). -/
def execSrl (f : FS) (s : State) : Result := alu (Instr.srl f).check f (fun x y => x >>> shiftCount y) s

/-- `sra sd, sa, sb` (R155). -/
def execSra (f : FS) (s : State) : Result := alu (Instr.sra f).check f (fun x y => x.sshiftRight (shiftCount y)) s

/-- `slt sd, sa, sb` (R155). -/
def execSlt (f : FS) (s : State) : Result := alu (Instr.slt f).check f (fun x y => lessS x y) s

/-- `sltu sd, sa, sb` (R155). -/
def execSltu (f : FS) (s : State) : Result := alu (Instr.sltu f).check f (fun x y => lessU x y) s

/-- `add sd, sa, imm` (R155). -/
def execAddImm (f : FS) (s : State) : Result := aluImm (Instr.addImm f).check f (fun x y => x + y) s

/-- `and sd, sa, imm` (R155). -/
def execAndImm (f : FS) (s : State) : Result := aluImm (Instr.andImm f).check f (fun x y => x &&& y) s

/-- `or sd, sa, imm` (R155). -/
def execOrImm (f : FS) (s : State) : Result := aluImm (Instr.orImm f).check f (fun x y => x ||| y) s

/-- `xor sd, sa, imm` (R155). -/
def execXorImm (f : FS) (s : State) : Result := aluImm (Instr.xorImm f).check f (fun x y => x ^^^ y) s

/-- `sll sd, sa, imm` (R155). -/
def execSllImm (f : FS) (s : State) : Result := aluImm (Instr.sllImm f).check f (fun x y => x <<< shiftCount y) s

/-- `srl sd, sa, imm` (R155). -/
def execSrlImm (f : FS) (s : State) : Result := aluImm (Instr.srlImm f).check f (fun x y => x >>> shiftCount y) s

/-- `sra sd, sa, imm` (R155). -/
def execSraImm (f : FS) (s : State) : Result :=
  aluImm (Instr.sraImm f).check f (fun x y => x.sshiftRight (shiftCount y)) s

/-- `slt sd, sa, imm` (R155). -/
def execSltImm (f : FS) (s : State) : Result := aluImm (Instr.sltImm f).check f (fun x y => lessS x y) s

/-- `li sd, imm` (R156). -/
def execLi (f : FI) (s : State) : Result :=
  scalarResult { check := (Instr.li f).check, writes := [f.sd] } f.sd (fun _ => immS f.imm) s

/-- `lhi sd, sa, imm` (R156). -/
def execLhi (f : FI) (s : State) : Result :=
  scalarResult { check := (Instr.lhi f).check, reads := [f.sa], writes := [f.sd] } f.sd
    (fun g => f.imm ++ (g.reg f.sa.toNat).extractLsb' 0 32) s

/-- `clz sd, sa` (R156). -/
def execClz (f : FS) (s : State) : Result :=
  aluOne (Instr.clz f).check f (fun x => BitVec.ofNat 64 (leadingZeros 64 x.toNat)) s

/-- `ctz sd, sa` (R156). -/
def execCtz (f : FS) (s : State) : Result :=
  aluOne (Instr.ctz f).check f (fun x => BitVec.ofNat 64 (trailingZeros 64 x.toNat)) s

/-- `popc sd, sa` (R156). -/
def execPopc (f : FS) (s : State) : Result :=
  aluOne (Instr.popc f).check f (fun x => BitVec.ofNat 64 (popCount 64 x.toNat)) s

/-- `bswap sd, sa` (R156). -/
def execBswap (f : FS) (s : State) : Result :=
  aluOne (Instr.bswap f).check f (fun x => BitVec.ofNat 64 (reverseBytes 8 x.toNat)) s

/-- `lea sd, sa, sb, sh, off` (R156). -/
def execLea (f : FS) (s : State) : Result :=
  alu (Instr.lea f).check f (fun x y => x + y <<< f.w + immS f.imm) s

/-- `lea sd, sa, off, sh` (R156). -/
def execLeaImm (f : FS) (s : State) : Result :=
  aluImm (Instr.leaImm f).check f (fun x y => x + y <<< f.w) s

/-- `pcaddr sd, label` (R156). -/
def execPcaddr (f : FI) (s : State) : Result :=
  scalarResult { check := (Instr.pcaddr f).check, writes := [f.sd] } f.sd (fun g => addrPlus g.hdr f.imm 8) s

end Sys2Proof.Machine
end

