-- ==== Sys2Proof/Machine/ScalarMem.lean ====
section
/-!
DEFINITION. Scalar loads, stores, atomics and cache operations (R142, R146-R149, R161-R164), the store buffer and the
return of loads.
-/
namespace Sys2Proof.Machine

/-- The ALIGN trap (R415). -/
def alignTrap (a : W64) : TrapInfo := { cause := 0x04, addr := a }
/-- The SPBOUND trap (R415). -/
def spboundTrap (a : W64) : TrapInfo := { cause := 0x05, addr := a }
/-- The access code of a page fault's detail (R415). -/
def AccessKind.code : AccessKind → Nat
  | .write => 1
  | .atomic => 2
  | _ => 0
/-- The PAGEFAULT trap (R305, R415). -/
def pageTrap (detail : Nat) (kind : AccessKind) (a : W64) : TrapInfo :=
  { cause := 0x06, detail := detail + 256 * kind.code, addr := a }
/-- The LEASE_REVOKED trap (R374, R415). -/
def leaseTrap (lease : Nat) (a : W64) : TrapInfo := { cause := 0x08, detail := lease, addr := a }

/-- The check of a scalar access at issue: alignment first, then translation (R161). -/
inductive Checked where
  | ok (s : State) (t : Target)
  | trap (s : State) (info : TrapInfo)
  | wait (s : State)

/-- Translation of one address for a group, as a trap where it fails (R305, R374). -/
def translated (s : State) (g : Grp) (a : W64) (kind : AccessKind) : Checked :=
  match translate s g.part a kind with
  | (.ok _ t, s) => .ok s t
  | (.fault d, s) => .trap s (pageTrap d kind a)
  | (.revoked l, s) => .trap s (leaseTrap l a)
  | (.wait, s) => .wait s

/-- Alignment and translation of a scalar access of `size` bytes (R161). -/
def checkedAccess (s : State) (g : Grp) (a : W64) (size : Nat) (kind : AccessKind) : Checked :=
  if a.toNat % size ≠ 0 then .trap s (alignTrap a) else translated s g a kind

/-- The distance of two targets in one space. -/
def Target.delta (t u : Target) : Option Int :=
  match t, u with
  | .phys a, .phys b => some ((b : Int) - a)
  | .transit r a, .transit q b => if r = q then some ((b : Int) - a) else none
  | .spad a, .spad b => some ((b : Int) - a)
  | .leased l a, .leased m b => if l = m then some ((b : Int) - a) else none
  | _, _ => none

/-- The `n` bytes at `t` and the `m` bytes at `u` overlap. -/
def Target.overlaps (t : Target) (n : Nat) (u : Target) (m : Nat) : Bool :=
  match t.delta u with
  | some d => decide (d < n) && decide (-d < m)
  | none => false

/-- A page in transit (R315). -/
def Target.inTransit : Target → Bool
  | .transit _ _ => true
  | _ => false

/-- A place in global memory. -/
def Target.global : Target → Bool
  | .spad _ | .peer _ => false
  | _ => true

/-- Two accesses of one group touch a byte in common (R148): their places overlap, or, where one was translated before its page
went into transit or after it came out and the other while it was, their addresses do. -/
def Access.meets (a b : Access) : Bool :=
  a.target.overlaps a.size b.target b.size
    || (a.target.global && b.target.global && (a.target.inTransit != b.target.inTransit)
        && (decide ((b.va - a.va).toNat < a.size) || decide ((a.va - b.va).toNat < b.size)))

/-- A word whose elements write global memory (R148). -/
def writesGlobal : Instr → Bool
  | .vst _ | .vaadd _ | .vafadd _ | .vaand _ | .vaor _ | .vaxor _ | .vamin _ | .vamax _ | .vaswap _ | .vacas _
  | .rst _ | .raadd _ | .rafadd _ | .raor _ | .ramin _ | .ramax _ | .raswap _ | .rcas _ => true
  | _ => false

/-- A word whose elements write scratchpad (R148). -/
def writesScratch : Instr → Bool
  | .vsts _ | .vstp _ => true
  | _ => false

/-- SD of a form word. -/
def sdField (f : FF) : BitVec 6 := (f.ext.extractLsb' 4 6)

/-- The kind of the destination stream that a form word names, with the specification that it read at issue (R227, R228): 0 scratchpad,
1 global memory, 3 registers. -/
def destKinds (i : Instr) (ops : List W64) : List Nat :=
  match i with
  | .map f | .zip f | .reduce f | .scan f | .scanX f | .stencil f | .gapply f =>
    if sdField f = 0 then [] else [bitsOf (ops.getD 10 0).toNat 62 2]
  | _ => []

/-- The same of a queue entry, which may be a pair. -/
def VEntry.destKinds (e : VEntry) : List Nat :=
  Machine.destKinds e.instr e.ops ++ (match e.inner with | some (i, ops) => Machine.destKinds i ops | none => [])

/-- The entry's elements write global memory (R148): those of a store or an atomic, and of a form with a global destination. -/
def VEntry.writesGlobal (e : VEntry) : Bool := Machine.writesGlobal e.instr || e.destKinds.contains 1

/-- The entry's elements write scratchpad (R148). -/
def VEntry.writesScratch (e : VEntry) : Bool := Machine.writesScratch e.instr || e.destKinds.contains 0

/-- The committed word still has scratchpad to read or to write (R148, R333). -/
def VEntry.touchesScratch (e : VEntry) : Bool :=
  (match e.instr with | .vlds _ | .vldp _ => true | _ => false) || e.writesScratch

/-- A word whose elements may read global memory. -/
def readsGlobal : Instr → Bool
  | .vld _ | .ldattAtt _ | .ldattRec _ | .mxmul _ | .mxmulZ _ | .mxbp _ | .mxbpZ _ | .rkacc _
  | .map _ | .zip _ | .reduce _ | .scan _ | .scanX _ | .stencil _ | .gapply _ => true
  | _ => false

/-- An older vector-side word that may read global memory is left. -/
def Grp.olderReader (g : Grp) (id : Nat) : Bool :=
  g.vq.any (fun e => e.id < id && readsGlobal e.instr) || g.flights.any (fun f => f.entry.id < id && readsGlobal f.entry.instr)

/-- A scalar load of `bits` bits may be asked of a lender: what it reads there is noted (R380) in the eight bytes that it reads, so that a
narrower one goes once no older word that may read there is left. DESIGN CHOICE (log entry 9). -/
def Grp.mayAskLoad (g : Grp) (id bits : Nat) : Bool := decide (bits = 64) || !g.olderReader id

/-- A place that may lie at a lender. -/
def Target.maybeLeased : Target → Bool
  | .leased _ _ | .transit _ _ => true
  | _ => false

/-- A place some bytes before another. -/
def Target.back (t : Target) (n : Nat) : Target :=
  match t with
  | .phys a => .phys (a - n)
  | .transit r a => .transit r (a - n)
  | .leased l a => .leased l (a - n)
  | .peer w => .peer w
  | .spad k => .spad (k - n)

/-- The sectors of 32 bytes that an access lies in, as one access (R264). -/
def Access.sectors (a : Access) : Access :=
  let d := a.va.toNat % 32
  { a with va := a.va - BitVec.ofNat 64 d, size := roundUp (a.size + d) 32, target := a.target.back d }

/-- A committed vector instruction older than `id` still has to touch these bytes, or has asked a lender for some (R148); a pass
holds back whole sectors (R267). -/
def Grp.flightOverlap (g : Grp) (id : Nat) (a : Access) : Bool :=
  g.flights.any (fun f => f.entry.id < id &&
    (f.todo.any (fun b => a.meets (if f.phase = .matrix then b.sectors else b)) || (decide (f.waits ≠ []) && a.target.maybeLeased)))

/-- A scalar load older than `id` that has not read its bytes meets an access (R380). -/
def Grp.loadOverlap (g : Grp) (id : Nat) (a : Access) : Bool :=
  g.loads.any (fun l => l.id < id && (match l.acc with | some b => b.meets a | none => false))

/-- What the store buffer holds of the bytes of a load (R148). -/
inductive Forward where
  | none
  | value (v : Nat)
  /-- some of the bytes: the load waits -/
  | partly
  deriving DecidableEq, Repr

/-- The youngest buffered store that overlaps a load (R148). -/
def forwardGlobal (a : Access) : List StoreEntry → Forward
  | [] => .none
  | e :: older =>
    match e.act with
    | .store acc v =>
      if !acc.meets a then forwardGlobal a older
      else
        (match acc.target.delta a.target with
         | some d => if 0 ≤ d ∧ d + a.size ≤ acc.size then .value (v / 256 ^ d.toNat % 256 ^ a.size) else .partly
         | none => .partly)
    | _ => forwardGlobal a older

/-- The same for a load of the scratchpad at offset `off` (R148). -/
def forwardScratch (off n : Nat) : List StoreEntry → Forward
  | [] => .none
  | e :: older =>
    match e.act with
    | .scratch o m v =>
      if o ≤ off ∧ off + n ≤ o + m then .value (v / 256 ^ (off - o) % 256 ^ n)
      else if off < o + m ∧ o < off + n then .partly
      else forwardScratch off n older
    | _ => forwardScratch off n older

/-- The value of a scalar load of `bits` bits in a register (R162). -/
def loadedValue (bits : Nat) (signed : Bool) (v : Nat) : W64 :=
  if signed then BitVec.ofInt 64 (toSigned bits v) else BitVec.ofNat 64 (v % 2 ^ bits)

/-- The old value of a load's destination logged at issue (R143). -/
def Grp.logReg (g : Grp) (n : Nat) : Grp :=
  if n = 0 ∨ g.vq = [] then g else { g with undo := g.undo ++ [(g.nextId, .reg n (g.reg n))] }

/-- A load made pending (R147). -/
def Grp.pend (g : Grp) (l : Load) : Grp := { g.logReg l.sd with loads := g.loads ++ [l] }

/-- The load of the word at hand, with nothing known of its value. -/
def Grp.newLoad (g : Grp) (sd bits : Nat) (signed : Bool) : Load :=
  { id := g.nextId, stamp := g.nextId, pc := g.pc, hdr := g.hdr, sd := sd, gen := g.gen, value := none, bits := bits
    signed := signed }

/-- A load's value has been read: it is delivered at its return, or, where nothing younger may pass it (R142), at once. -/
def finishLoad (s : State) (tag : Nat) (g : Grp) (l : Load) (now : Bool) (v : Nat) : Issue :=
  let x := loadedValue l.bits l.signed v
  if now then .done (s.setGrp tag (g.setReg l.sd x)) else .done (s.setGrp tag (g.pend { l with value := some x }))

/-- A fabric request that is being performed has written some of these bytes and has elements left: an acquire that reads them
waits, so that it sees every element of the request (R391). -/
def State.arriving (s : State) (pa n : Nat) : Bool :=
  s.fabric.serving.any (fun v => decide (v.todo ≠ []) && v.wrote.any (fun w => decide (w.1 < pa + n) && decide (pa < w.1 + w.2)))

/-- The same at a translated place. -/
def State.arrivingAt (s : State) (a : Access) : Bool :=
  match resolve s a.target with
  | .at pa => s.arriving pa a.size
  | _ => false

/-- A load that is performed at its return (R382). -/
def deferLoad (s : State) (tag : Nat) (g : Grp) (l : Load) (a : Access) : Issue :=
  .done (s.setGrp tag (g.pend { l with acc := some a }))

/-- A load whose bytes are read at a place: what it read is noted (R245, R380), with the aligned eight bytes `v` that hold them. -/
def Grp.loaded (g : Grp) (id space place n v : Nat) : Grp := (g.touch space place n).noteRead id space place n v

/-- The request of a scalar access to a T3 page (R330). -/
def scalarRequest (s : State) (g : Grp) (who : Asker) (p : Packet) : Request :=
  { dst := p.dst, seq := s.nextSeq p.dst, what := .packet p, who := who, part := g.part, launch := g.launch, pc := g.pc
    hdr := g.hdr }

/-- A load or atomic whose answer comes over the fabric (R330). -/
def askLoad (s : State) (tag : Nat) (g : Grp) (l : Load) (block : Bool) (a : Access) (p : Packet) : Issue :=
  let l := { l with waits := [(p.dst, s.nextSeq p.dst)], block := block, acc := some a }
  .done ((s.setGrp tag (g.pend l)).request (scalarRequest s g (.load tag l.id) p))

/-- A scalar load from global memory (R161, R162): `bits` wide. -/
def loadWord (c : Check) (f : FS) (bits : Nat) (signed : Bool) (s : State) : Result :=
  .next (issueControl
    { check := c, reads := [f.sa], writes := [f.sd], memory := true, drained := decide (f.ord = 1) } (fun s tag g =>
      match checkedAccess s g (f.addr g) (bits / 8) .read with
      | .trap s i => .trap s i
      | .wait s => .stall s
      | .ok s t =>
        let acquire := decide (f.ord = 1)
        let g := g.afterOrd f.ord
        let l := g.newLoad f.sd.toNat bits signed
        let a : Access := { elem := 0, size := bits / 8, va := f.addr g, target := t }
        if g.vq.any VEntry.writesGlobal || g.flightOverlap g.nextId a || g.loadOverlap g.nextId a
            || (acquire && s.arrivingAt a) then .stall s
        else
          match forwardGlobal a g.stores.reverse with
          | .partly => .stall s
          | .value v => finishLoad s tag g l acquire v
          | .none =>
            if !acquire && s.sched.late.contains tag then deferLoad s tag g l a
            else
              match resolve s t with
              | .at pa =>
                s.atPort g.core 1 (fun s =>
                  let v := s.memRead pa (bits / 8)
                  finishLoad s tag (g.loaded l.id 0 pa (bits / 8) (s.memRead (pa / 8 * 8) 8)) l acquire v)
              | .locked | .spad _ => .stall s
              | .leased n off =>
                if !g.mayAskLoad l.id bits then .stall s
                else s.atPort g.core 1 (fun s => askLoad s tag g l acquire a (leasedPacket s 1 0 bits n off tag false [] []))) s)

/-- `ld.i8` (R162). -/
def execLdI8 (f : FS) (s : State) : Result := loadWord (Instr.ldI8 f).check f 8 true s
/-- `ld.i16` (R162). -/
def execLdI16 (f : FS) (s : State) : Result := loadWord (Instr.ldI16 f).check f 16 true s
/-- `ld.i32` (R162). -/
def execLdI32 (f : FS) (s : State) : Result := loadWord (Instr.ldI32 f).check f 32 true s
/-- `ld.i64` (R162). -/
def execLdI64 (f : FS) (s : State) : Result := loadWord (Instr.ldI64 f).check f 64 true s
/-- `ld.n8` (R162). -/
def execLdN8 (f : FS) (s : State) : Result := loadWord (Instr.ldN8 f).check f 8 false s
/-- `ld.n16` (R162). -/
def execLdN16 (f : FS) (s : State) : Result := loadWord (Instr.ldN16 f).check f 16 false s
/-- `ld.n32` (R162). -/
def execLdN32 (f : FS) (s : State) : Result := loadWord (Instr.ldN32 f).check f 32 false s

/-- A committed instruction that a release at a scope does not wait for: the engines' copies and transfers (R388), a
reduction, and below fabric scope a remote instruction (R389). -/
def Flight.settled (f : Flight) (scope : Nat) : Bool :=
  match f.phase with
  | .post | .collective | .reducing => true
  | .remote => decide (scope ≠ 6)
  | _ => false

/-- Every access of the group older than `id` that a release at a scope orders is performed (R383, R388, R389). -/
def Grp.quietBefore (g : Grp) (id scope : Nat) : Bool :=
  g.stores.all (fun e => id ≤ e.id) && g.loads.all (fun l => id ≤ l.id)
    && g.flights.all (fun f => id ≤ f.entry.id || f.settled scope)

/-- A committed remote word whose answer brings no value of the group's reads. -/
def onlyWrites : Instr → Bool
  | .rst _ => true
  | _ => false

/-- What a fence of the group waits for of what is older than `id` (R387, R389, R396): every access, since a fence of any kind is
cumulative over the writes that the group sees, its own among them; an acquire, at whatever scope, also the reads of older remote
words. -/
def Grp.fencedBefore (g : Grp) (id ord scope : Nat) : Bool :=
  g.quietBefore id scope
    && (ord % 2 = 0 || g.flights.all (fun f => id ≤ f.entry.id || f.phase ≠ .remote || onlyWrites f.entry.instr))

/-- A fence of the control thread may pass (R387, R389, R396). -/
def Grp.fenced (g : Grp) (ord scope : Nat) : Bool := decide (g.vq = []) && g.fencedBefore g.nextId ord scope

/-- The same as `quietBefore` for a word of the control thread. -/
def Grp.quiet (g : Grp) (scope : Nat) : Bool := decide (g.vq = []) && g.quietBefore g.nextId scope

/-- An entry joins the store buffer and raises its counter (R149, R150). -/
def Grp.buffer (g : Grp) (act : Buffered) : Grp :=
  let e : StoreEntry := { id := g.nextId, stamp := g.nextId, pc := g.pc, hdr := g.hdr, act := act }
  let g := { g with stores := g.stores ++ [e] }
  match act.path with
  | some p => g.raise p g.nextId
  | none => g

/-- The store buffer is full, or the counter that the entry raises is (R149, R151). -/
def Grp.bufferFull (g : Grp) (path : Option Path) : Bool :=
  decide (g.stores.length ≥ Config.storeDepth) || g.countsFull path []

/-- A word that enters the store buffer (R149). -/
def bufferWord (s : State) (tag : Nat) (g : Grp) (act : Buffered) : Issue :=
  if g.bufferFull act.path then .stall s
  else .done (grantPermission (s.setGrp tag (g.buffer act)) tag g (g.buffer act))

/-- A release store, performed at its word once the group is quiet (R142): ST is raised and returned. -/
def releaseStore (s : State) (tag : Nat) (g : Grp) (acc : Access) (v scope : Nat) : Issue :=
  if !g.quiet scope then .stall s else
  match resolve s acc.target with
  | .at pa =>
    s.atPort g.core 1 (fun s =>
      .done ((s.memWrite pa acc.size v).modGrp tag (fun g => (g.touch 0 pa acc.size).afterOrd 2)))
  | .locked | .spad _ => .stall s
  | .leased n off =>
    s.atPort g.core 1 fun s =>
    let p := leasedPacket s 2 0 (8 * acc.size) n off tag false [v] []
    let e : StoreEntry :=
      { id := g.nextId, stamp := g.nextId, pc := g.pc, hdr := g.hdr, act := .store acc v, block := true
        waits := [(p.dst, s.nextSeq p.dst)] }
    let g' := { (g.afterOrd 2).raise .st g.nextId with stores := [e] }
    .done ((s.setGrp tag g').request (scalarRequest s g (.store tag e.id) p))

/-- A scalar store to global memory (R161, R162): `bits` wide. -/
def storeWord (c : Check) (f : FS) (bits : Nat) (s : State) : Result :=
  .next (issueControl { check := c, reads := [f.sa, f.sb], memory := true, drained := decide (f.ord = 2) } (fun s tag g =>
    match checkedAccess s g (f.addr g) (bits / 8) .write with
    | .trap s i => .trap s i
    | .wait s => .stall s
    | .ok s t =>
      let acc : Access := { elem := 0, size := bits / 8, va := f.addr g, target := t }
      let v := (g.reg f.sb.toNat).toNat % 2 ^ bits
      if f.ord = 2 then releaseStore s tag g acc v f.scope else bufferWord s tag g (.store acc v)) s)

/-- `st.n8` (R162). -/
def execStN8 (f : FS) (s : State) : Result := storeWord (Instr.stN8 f).check f 8 s
/-- `st.n16` (R162). -/
def execStN16 (f : FS) (s : State) : Result := storeWord (Instr.stN16 f).check f 16 s
/-- `st.n32` (R162). -/
def execStN32 (f : FS) (s : State) : Result := storeWord (Instr.stN32 f).check f 32 s
/-- `st.n64` (R162). -/
def execStN64 (f : FS) (s : State) : Result := storeWord (Instr.stN64 f).check f 64 s

/-- `n` bytes from offset `a` lie in the group's own scratchpad allocation (R162). -/
def Grp.inSpad (g : Grp) (a : Int) (n : Nat) : Bool :=
  decide ((g.spadBase : Int) ≤ a) && decide (a + n ≤ g.spadBase + g.spad * 4096)

/-- The trap of a scalar scratchpad access, if any: ALIGN, then SPBOUND (R161, R162). -/
def Grp.spadTrap (g : Grp) (a : W64) (n : Nat) : Option TrapInfo :=
  if a.toNat % n ≠ 0 then some (alignTrap a)
  else if g.inSpad a.toNat n then none else some (spboundTrap a)

/-- A committed vector instruction still has to write this scratchpad range (R148). -/
def Grp.scratchPending (g : Grp) : Bool :=
  g.vq.any VEntry.writesScratch || g.flights.any (fun f => f.entry.writesScratch)

/-- `lds` (R162). -/
def execLds (f : FS) (s : State) : Result :=
  .next (issueControl { check := (Instr.lds f).check, reads := [f.sa], writes := [f.sd], memory := true } (fun s tag g =>
    let a := f.addr g
    let n := 2 ^ f.w
    match g.spadTrap a n with
    | some i => .trap s i
    | none =>
      let l := g.newLoad f.sd.toNat (8 * n) false
      let key := spadKey g.core a.toNat
      let acc : Access := { elem := 0, size := n, va := a, target := .spad key }
      if g.scratchPending || g.loadOverlap g.nextId acc then .stall s else
      match forwardScratch a.toNat n g.stores.reverse with
      | .partly => .stall s
      | .value v => finishLoad s tag g l false v
      | .none =>
        if s.sched.late.contains tag then deferLoad s tag g l acc
        else
          let v := s.spadRead g.core a.toNat n
          finishLoad s tag (g.loaded l.id 1 key n (Memory.readNat s.spad (key / 8 * 8) 8)) l false v) s)

/-- `sts` (R162). -/
def execSts (f : FS) (s : State) : Result :=
  .next (issueControl { check := (Instr.sts f).check, reads := [f.sa, f.sb], memory := true } (fun s tag g =>
    let a := f.addr g
    let n := 2 ^ f.w
    match g.spadTrap a n with
    | some i => .trap s i
    | none => bufferWord s tag g (.scratch a.toNat n ((g.reg f.sb.toNat).toNat % 256 ^ n))) s)

/-- The new value of an integer atomic of 0x13 or 0x43, by FN of 0x43 (R163, R337); `u` is U. -/
def atomicValue (fn bits : Nat) (u : Bool) (d v : Nat) : Nat :=
  let less (a b : Nat) : Bool :=
    if u then decide (a % 2 ^ bits < b % 2 ^ bits) else decide (toSigned bits a < toSigned bits b)
  match fn with
  | 0 => (d + v) % 2 ^ bits
  | 1 => (floatAdd 8 1 (readFloat 8 d) (readFloat 8 v)).1
  | 2 => Nat.land d v
  | 3 => Nat.lor d v
  | 4 => Nat.xor d v
  | 5 => if less v d then v else d
  | 6 => if less d v then v else d
  | _ => v

/-- A store-buffer entry older than `id` overlaps these bytes (R148). -/
def Grp.storeOverlap (g : Grp) (id : Nat) (a : Access) : Bool :=
  g.stores.any (fun e => e.id < id &&
    (match e.act with
     | .store acc _ => acc.meets a || (decide (e.waits ≠ []) && a.target.maybeLeased)
     | _ => false))

/-- An older access of the group to bytes of an access of word `id` is still to be performed (R148, R380). -/
def Grp.olderAccess (g : Grp) (id : Nat) (a : Access) : Bool :=
  g.flightOverlap id a || g.storeOverlap id a || g.loadOverlap id a

/-- The access of a word waits for older ones to the same bytes (R148), and a release for everything older (R383). -/
def Grp.accessWaits (g : Grp) (a : Access) (release : Bool) (scope : Nat) : Bool :=
  g.olderAccess g.nextId a || (release && !g.quiet scope)

/-- A scalar atomic or `cas` (R142, R163): performed at its word, and nothing younger issues until the old value is in
s[sd]. `expect` is the value that `cas` compares with, read from s[sd]. -/
def atomicWord (c : Check) (f : FS) (fn : Nat) (isCas : Bool) (s : State) : Result :=
  .next (issueControl
    { check := c, reads := if isCas then [f.sa, f.sb, f.sd] else [f.sa, f.sb], writes := [f.sd], memory := true
      drained := true } (fun s tag g =>
      let bits := 8 * 2 ^ f.w
      let y := (g.reg f.sb.toNat).toNat % 2 ^ bits
      let x := (g.reg f.sd.toNat).toNat % 2 ^ bits
      match checkedAccess s g (f.addr g) (bits / 8) .atomic with
      | .trap s i => .trap s i
      | .wait s => .stall s
      | .ok s t =>
        let a : Access := { elem := 0, size := bits / 8, va := f.addr g, target := t }
        if g.accessWaits a (decide (f.ord ≥ 2)) f.scope || (decide (f.ord % 2 = 1) && s.arrivingAt a) then .stall s else
        let g := g.afterOrd f.ord
        let l := g.newLoad f.sd.toNat bits true
        match resolve s t with
        | .at pa =>
          s.atPort g.core 1 fun s =>
          let old := s.memRead pa (bits / 8)
          let new := if isCas then (if old = x then y else old) else atomicValue fn bits false old y
          finishLoad (s.memWrite pa (bits / 8) new) tag (g.touch 0 pa (bits / 8)) l true old
        | .locked | .spad _ => .stall s
        | .leased n off =>
          s.atPort g.core 1 fun s =>
          askLoad s tag g l true a
            (if isCas then leasedPacket s 4 0 bits n off tag true [x] [y]
             else leasedPacket s 3 fn bits n off tag true [y] [])) s)

/-- `aadd` (R163). -/
def execAadd (f : FS) (s : State) : Result := atomicWord (Instr.aadd f).check f 0 false s
/-- `aand` (R163). -/
def execAand (f : FS) (s : State) : Result := atomicWord (Instr.aand f).check f 2 false s
/-- `aor` (R163). -/
def execAor (f : FS) (s : State) : Result := atomicWord (Instr.aor f).check f 3 false s
/-- `axor` (R163). -/
def execAxor (f : FS) (s : State) : Result := atomicWord (Instr.axor f).check f 4 false s
/-- `amin` (R163). -/
def execAmin (f : FS) (s : State) : Result := atomicWord (Instr.amin f).check f 5 false s
/-- `amax` (R163). -/
def execAmax (f : FS) (s : State) : Result := atomicWord (Instr.amax f).check f 6 false s
/-- `aswap` (R163). -/
def execAswap (f : FS) (s : State) : Result := atomicWord (Instr.aswap f).check f 7 false s
/-- `cas` (R163). -/
def execCas (f : FS) (s : State) : Result := atomicWord (Instr.cas f).check f 0 true s

/-- `cflush` and `cwb` (R164): memory holds every store once it is performed, so that what is left of them is their place
in the store buffer (log entry 6). No alignment is asked of a line (R340). -/
def lineWord (c : Check) (f : FS) (s : State) : Result :=
  .next (issueControl { check := c, reads := [f.sa] } (fun s tag g =>
    match translated s g (f.addr g) .cache with
    | .trap s i => .trap s i
    | .wait s => .stall s
    | .ok s t => bufferWord s tag g (.flush { elem := 0, size := 1, va := f.addr g, target := t })) s)

/-- `cflush` (R164). -/
def execCflush (f : FS) (s : State) : Result := lineWord (Instr.cflush f).check f s
/-- `cwb` (R164). -/
def execCwb (f : FS) (s : State) : Result := lineWord (Instr.cwb f).check f s

/-- `icinv` (R62, R164): through the store buffer. -/
def execIcinv (f : FS) (s : State) : Result :=
  .next (issueControl { check := (Instr.icinv f).check } (fun s tag g => bufferWord s tag g .invalidate) s)

/-- `prefetch` (R164): no architectural effect. -/
def execPrefetch (f : FS) (s : State) : Result :=
  .next (issueControl { check := (Instr.prefetch f).check, reads := [f.sa] } (fun s _ _ => .done s) s)

/-- The entry at the front of the store buffer may be performed: every older instruction has committed, and no older
committed access to its bytes is left (R148, R149). -/
def Grp.frontReady (g : Grp) (e : StoreEntry) : Bool :=
  !g.vq.any (fun q => q.id < e.stamp) && decide (e.waits = []) &&
  (match e.act with
   | .store acc _ => !g.flightOverlap e.id acc && !g.loadOverlap e.id acc
   | .scratch off n _ =>
     !g.flights.any (fun f => f.entry.id < e.id && f.entry.touchesScratch)
       && !g.loadOverlap e.id { elem := 0, size := n, va := 0, target := .spad (spadKey g.core off) }
   | _ => true)

/-- The store buffer without its front entry, whose counter returns. -/
def Grp.popStore (g : Grp) (e : StoreEntry) : Grp :=
  let g := { g with stores := g.stores.tail }
  match e.act.path with
  | some p => g.lower p e.id
  | none => g

/-- The front entry of a store buffer performed (R149); none where it cannot be yet. -/
def tryStoreBuffer (s : State) (tag : Nat) : Option State := do
  let g ← s.grp tag
  let e ← g.stores.head?
  if !g.frontReady e then none else
  match e.act with
  | .store acc v =>
    match resolve s acc.target with
    | .at pa => s.ported g.core 1 (fun s => some ((s.memWrite pa acc.size v).setGrp tag ((g.popStore e).touch 0 pa acc.size)))
    | .locked | .spad _ => none
    | .leased n off =>
      s.ported g.core 1 fun s =>
      let p := leasedPacket s 2 0 (8 * acc.size) n off tag false [v] []
      let e' := { e with waits := [(p.dst, s.nextSeq p.dst)] }
      let r := { scalarRequest s g (.store tag e.id) p with pc := e.pc, hdr := e.hdr }
      some ((s.setGrp tag { g with stores := e' :: g.stores.tail }).request r)
  | .scratch off n v =>
    some ((s.spadWrite g.core off n v).setGrp tag ((g.popStore e).touch 1 (spadKey g.core off) n))
  | .flush _ => some (s.setGrp tag (g.popStore e))
  | .invalidate =>
    some ((s.setCore g.core { s.coreAt g.core with icache := [] }).setGrp tag (g.popStore e))

/-- An event that is enabled acts; one that is not leaves the state as it is. -/
def eventResult (s : State) (r : Option State) : Result := .next (r.getD s)

/-- STORE_BUFFER_PERFORM (R149). -/
def execStoreBufferPerform (gtag : Nat) (s : State) : Result := eventResult s (tryStoreBuffer s gtag)

/-- A scalar load's data written to its register (R147). -/
def Grp.returnLoad (g : Grp) (l : Load) (x : W64) : Grp :=
  { g.setReg l.sd x with loads := g.loads.filter (fun q => q.id ≠ l.id) }

/-- A scalar load returns (R147): its value is at hand, or it is performed now (R382). None where it waits. -/
def loadReturn (s : State) (tag : Nat) (g : Grp) (l : Load) : Option State :=
  match l.value, l.acc with
  | some x, _ => some (s.setGrp tag (g.returnLoad l x))
  | none, none => none
  | none, some a =>
    if l.waits ≠ [] then none
    else
      let read (s : State) (space place v eight : Nat) : Option State :=
        some (s.setGrp tag ((g.loaded l.id space place a.size eight).returnLoad l (loadedValue l.bits l.signed v)))
      match resolve s a.target with
      | .at pa => s.ported g.core 1 (fun s => read s 0 pa (s.memRead pa a.size) (s.memRead (pa / 8 * 8) 8))
      | .spad k => read s 1 k (Memory.readNat s.spad k a.size) (Memory.readNat s.spad (k / 8 * 8) 8)
      | .locked => none
      | .leased n off =>
        if !g.mayAskLoad l.id l.bits then none else
        s.ported g.core 1 fun s =>
        let p := leasedPacket s 1 0 l.bits n off tag false [] []
        let l' := { l with waits := [(p.dst, s.nextSeq p.dst)] }
        let g' := { g with loads := g.loads.map (fun q => if q.id = l.id then l' else q) }
        some ((s.setGrp tag g').request { scalarRequest s g (.load tag l.id) p with pc := l.pc, hdr := l.hdr })

/-- The first load of a group that can return does so (R147). -/
def tryLoadReturn (s : State) (tag : Nat) : Option State := do
  let g ← s.grp tag
  g.loads.findSome? (loadReturn s tag g)

/-- A particular load returns, by a turn of the agenda (R382, log entry 1). -/
def tryLoad (s : State) (tag id : Nat) : Option State := do
  let g ← s.grp tag
  let l ← g.loads.find? (fun l => l.id = id)
  loadReturn s tag g l

/-- SCALAR_LOAD_RETURN (R147). -/
def execScalarLoadReturn (gtag : Nat) (s : State) : Result := eventResult s (tryLoadReturn s gtag)

end Sys2Proof.Machine
end

