-- ==== Sys2Proof/Machine/Engine.lean ====
section
/-!
DEFINITION. Accesses that an engine, a form or a control-side word makes for itself at virtual addresses: they are translated,
and those that lie at a lender go over the fabric and wait for the answer (R330).
-/
namespace Sys2Proof.Machine

/-- Who makes an access: which kind of unit, its numbers, and what an event says of it (R422). -/
structure Agent where
  unit : Nat
  a : Nat
  b : Nat
  part : Nat
  launch : Nat := 0
  gtag : Nat := 0xFFFF
  pc : W64 := 0
  hdr : W64 := 0
  deriving DecidableEq, Repr

/-- The group's own word at hand as an agent. -/
def Grp.agent (g : Grp) (tag unit id : Nat) (pc hdr : W64) : Agent :=
  { unit := unit, a := tag, b := id, part := g.part, launch := g.launch, gtag := tag, pc := pc, hdr := hdr }

/-- The agent's name at an address. -/
def Agent.at (w : Agent) (va : W64) : Asker := .engine w.unit w.a w.b va

/-- An access has been asked for, or answered. -/
def State.asked (s : State) (who : Asker) : Bool :=
  s.fabric.answers.any (fun p => p.1 = who) || s.fabric.requests.any (fun r => r.who = who)

/-- How such an access ends. -/
inductive Reached where
  | ok (s : State) (value : Nat)
  | trap (s : State) (info : TrapInfo)
  /-- the lender could not perform it (R359) -/
  | failed (s : State)
  | wait (s : State)

/-- An access at a translated place: `here` performs it there, and a lender is asked with `packet`. -/
def reachAt (s : State) (w : Agent) (va : W64) (t : Target) (here : State → Place → State × Nat)
    (packet : State → Nat → Nat → Packet) : Reached :=
  match resolve s t with
  | .locked => .wait s
  | .leased l off =>
    (match s.fabric.answers.find? (fun p => p.1 = w.at va) with
     | some (_, some v) => .ok s v
     | some (_, none) => .failed s
     | none =>
       if s.fabric.requests.any (fun r => r.who = w.at va) then .wait s
       else
         let p := packet s l off
         .wait (s.request
           { dst := p.dst, seq := s.nextSeq p.dst, what := .packet p, who := w.at va, part := w.part, launch := w.launch
             pc := w.pc, hdr := w.hdr }))
  | p => let r := here s p; .ok r.1 r.2

/-- The `n` bytes at a place of this device. -/
def State.placeRead (s : State) (n : Nat) : Place → Nat
  | .at pa => s.memRead pa n
  | .spad k => Memory.readNat s.spad k n
  | _ => 0

/-- `s` with `n` bytes written at a place of this device. -/
def State.placeWrite (s : State) (n v : Nat) : Place → State
  | .at pa => s.memWrite pa n v
  | .spad k => { s with spad := Memory.writeNat s.spad k n v }
  | _ => s

/-- A read of `n` bytes of a translated place. -/
def readAt (s : State) (w : Agent) (va : W64) (n : Nat) (t : Target) : Reached :=
  reachAt s w va t (fun s p => (s, s.placeRead n p))
    (fun s l off => leasedPacket s 1 0 (8 * n) l off w.gtag false [] [])

/-- A write of `n` bytes of a translated place. -/
def writeAt (s : State) (w : Agent) (va : W64) (n v : Nat) (t : Target) : Reached :=
  reachAt s w va t (fun s p => (s.placeWrite n v p, 0))
    (fun s l off => leasedPacket s 2 0 (8 * n) l off w.gtag false [v] [])

/-- An access of `n` bytes at a virtual address, translated for one kind of access. -/
def reach (s : State) (w : Agent) (va : W64) (kind : AccessKind) (go : State → Target → Reached) : Reached :=
  match translate s w.part va kind with
  | (.ok _ t, s) => go s t
  | (.fault d, s) => .trap s (pageTrap d kind va)
  | (.revoked l, s) => .trap s (leaseTrap l va)
  | (.wait, s) => .wait s

/-- A read of `n` bytes at a virtual address. -/
def readVa (s : State) (w : Agent) (va : W64) (n : Nat) : Reached := reach s w va .read (fun s t => readAt s w va n t)

/-- A write of `n` bytes at a virtual address. -/
def writeVa (s : State) (w : Agent) (va : W64) (n v : Nat) : Reached :=
  reach s w va .write (fun s t => writeAt s w va n v t)

/-- How a read of several dwords ends. -/
inductive ReadMany where
  | ok (s : State) (dwords : List W64)
  | trap (s : State) (info : TrapInfo)
  /-- a lender could not read one (R359) -/
  | failed (s : State)
  | wait (s : State)

/-- `n` dwords from an address, in ascending order, each by `read`. -/
def readEach (read : State → W64 → Reached) (s : State) (va : W64) : Nat → ReadMany
  | 0 => .ok s []
  | n + 1 =>
    match read s va with
    | .ok s v =>
      (match readEach read s (va + 8) n with
       | .ok s ds => .ok s (BitVec.ofNat 64 v :: ds)
       | r => r)
    | .failed s => .failed s
    | .trap s i => .trap s i
    | .wait s => .wait s

/-- `n` dwords from a virtual address, in ascending order. -/
def readDwords (s : State) (w : Agent) (va : W64) (n : Nat) : ReadMany := readEach (fun s va => readVa s w va 8) s va n

/-- The answers to some askers are forgotten. -/
def State.forgetAll (s : State) (p : Asker → Bool) : State :=
  let f := s.fabric
  { s with fabric := { f with answers := f.answers.filter (fun x => !p x.1), lapsed := f.lapsed.filter (fun x => !p x) } }

/-- The asker is an access of the agent. -/
def Agent.made (w : Agent) : Asker → Bool
  | .engine u a b _ => u = w.unit && a = w.a && b = w.b
  | _ => false

/-- The answers that an agent has used are forgotten. -/
def State.forget (s : State) (w : Agent) : State := s.forgetAll w.made

/-- What waits at the cores' ports. -/
def State.portsWaiting (s : State) : List (Nat × Nat × Bool) := s.cores.map (fun c => (c.1, c.2.credit, c.2.asking))

/-- A wait that has changed what the state holds: a request sent to the host or to a lender, an answer taken, or a request that has
come to a port. -/
def moved (s s' : State) : Bool :=
  decide (s'.hostRequests ≠ s.hostRequests) || decide (s'.fabric.requests ≠ s.fabric.requests)
    || decide (s'.fabric.answers ≠ s.fabric.answers) || decide (s'.portsWaiting ≠ s.portsWaiting)

/-- An event that waits is enabled only where it has sent a request. -/
def ifMoved (s s' : State) : Option State := if moved s s' then some s' else none

/-- Kinds of agents: a word of the control thread, a form's block, a form's stream, a copy, a descriptor, a launch record. -/
abbrev unitWord : Nat := 0
abbrev unitBlock : Nat := 1
abbrev unitStream : Nat := 2
abbrev unitCopy : Nat := 3
abbrev unitTable : Nat := 4
abbrev unitMatrix : Nat := 5
abbrev unitRecord : Nat := 6
abbrev unitTrigger : Nat := 7
abbrev unitColl : Nat := 8
abbrev unitCopyOut : Nat := 9
abbrev unitCounter : Nat := 10

/-- The kind of agent that writes event and trap records. -/
abbrev unitRing : Nat := 13

/-- The kind of agent of the compare-and-swaps by which an agent changes a dword at a lender. -/
abbrev unitSwap : Nat := 100

/-- The agent of a compare-and-swap that expects `x`. -/
def Agent.swap (w : Agent) (x : Nat) : Agent := { w with unit := unitSwap + w.unit, b := w.b * 2 ^ 64 + x }

/-- `s` without the answers to an agent's compare-and-swaps. -/
def State.forgetSwaps (s : State) (w : Agent) : State :=
  s.forgetAll (fun p => match p with | .engine u a b _ => u = unitSwap + w.unit && a = w.a && b / 2 ^ 64 = w.b | _ => false)

/-- `s` with another answer for an access: what a compare-and-swap found there. -/
def State.answerAgain (s : State) (who : Asker) (x : Nat) : State :=
  let answers := s.fabric.answers.map (fun p => if p.1 = who then (p.1, some x) else p)
  { s with fabric := { s.fabric with answers := answers } }

/-- One atomic read-modify-write of a dword (R111, R352): its old value. At a lender it is a read and then a compare-and-swap that
is tried until the dword still holds what was read (log entry 17). -/
def rmwAt (s : State) (w : Agent) (va : W64) (t : Target) (new : Nat → Nat) : Reached :=
  match resolve s t with
  | .at pa => let old := s.memRead pa 8; .ok (s.memWrite pa 8 (new old)) old
  | _ =>
    match readAt s w va 8 t with
    | .ok s x =>
      let swap := reachAt s (w.swap x) va t (fun s _ => (s, x))
        (fun s l off => leasedPacket s 4 0 64 l off w.gtag true [x] [new x])
      (match swap with
       | .ok s y =>
         let s := s.forgetSwaps w
         if y = x then .ok s x
         else .wait (s.answerAgain (w.at va) y)
       | .failed s => .failed (s.forgetSwaps w)
       | r => r)
    | r => r

/-- How the raising of a completion counter ends. -/
inductive Raised where
  | done (s : State)
  | wait (s : State)

/-- The request that an engine makes and does not wait for. -/
def engineRequest (s : State) (w : Agent) (va : W64) (p : Packet) : Request :=
  { dst := p.dst, seq := s.nextSeq p.dst, what := .packet p, who := w.at va, part := w.part, launch := w.launch, pc := w.pc
    hdr := w.hdr }

/-- A completion counter is raised (R111, R346) by one atomic read-modify-write, at a lender too; `fallback` is the event of R478 for
one that cannot be reached, and address 0 is no counter (R343). DESIGN CHOICE (log entry 35): the 8 bytes at an address that is no
multiple of 8 are raised as they lie, and a counter whose raise a lender fails is one that cannot be reached. -/
def raiseCounter (s : State) (w : Agent) (addr : W64) (err : Bool) (fallback : Report) : Raised :=
  if addr = 0 then .done s else
  match translate s w.part addr .atomic with
  | (.wait, s) => .wait s
  | (.fault _, s) | (.revoked _, s) => .done (postEvent s { fallback with addr := addr })
  | (.ok _ t, s) =>
    match rmwAt s w addr t (fun old => counterNext old err) with
    | .ok s _ => .done (s.forget w)
    | .failed s | .trap s _ => .done (postEvent (s.forget w) { fallback with addr := addr })
    | .wait s => .wait s

/-- The event of R478 for the counter of an operation that an instruction posted. -/
def counterFault (w : Agent) (cause : Nat) : Report :=
  { cause := 0x28, part := w.part, gtag := w.gtag, launch := w.launch % 2 ^ 32, pc := w.pc, hdr := w.hdr, a0 := cause
    a1 := w.pc.toNat }

/-- A store of the eight dwords of a record at a lender (R330, R421). -/
def recordPacket (s : State) (l off : Nat) (bytes : List Byte) : Packet :=
  { leasedPacket s 2 0 64 l off 0xFFFF false ((upTo 8).map (fun k => ofBytes ((bytes.drop (8 * k)).take 8))) [] with mask := upTo 8 }

/-- A record written at its slot, also at a lender: how that ends. -/
def writeRecord (s : State) (w : Agent) (reg : W64) (widx : Nat) (bytes : List Byte) : Reached :=
  let va := BitVec.ofNat 64 (ringSlot reg widx)
  reach s w va .write (fun s t => reachAt s w va t (fun s p => (s.placeWrite 64 (ofBytes bytes) p, 0))
    (fun s l off => recordPacket s l off bytes))

/-- The first event record of a partition that waits for its slot is written, or dropped (R421). -/
def tryRingEvent (s : State) (p : Nat) : Option State :=
  let u := s.partAt p
  match u.events with
  | [] => none
  | bytes :: rest =>
    let w : Agent := { unit := unitRing, a := p, b := u.eqwidx, part := p }
    let next (s : State) : State := let u := s.partAt p; (s.forget w).setPart p { u with events := rest }
    if !ringEnabled u.eqbase || ringFull u.eqbase u.eqwidx u.eqridx then some ((next s).eventDropped p)
    else
      match writeRecord s w u.eqbase u.eqwidx bytes with
      | .ok s _ => some ((next s).eventPosted p)
      | .failed s | .trap s _ => some ((next s).eventDropped p)
      | .wait s' => ifMoved s s'

/-- The first trap record of a partition that waits only for its slot is written, or waits as for a full queue (R421). -/
def tryRingTrap (s : State) (p : Nat) : Option State :=
  let u := s.partAt p
  match u.waiting with
  | [] => none
  | x :: rest =>
    let w : Agent := { unit := unitRing, a := 256 + p, b := u.fqwidx, part := p }
    let keep (s : State) : State :=
      let u := s.partAt p
      (s.forget w).setPart p { u with waiting := { x with soon := false } :: rest }
    if !x.soon then none
    else if !ringEnabled u.fqbase || ringFull u.fqbase u.fqwidx u.fqridx then some (keep s)
    else
      match writeRecord s w u.fqbase u.fqwidx x.bytes with
      | .ok s _ =>
        let s := (s.forget w).trapPosted p rest
        some (retryTraps s p rest.length)
      | .failed s | .trap s _ => some (keep s)
      | .wait s' => ifMoved s s'

/-- A record that waits only for its slot, of either ring of a partition. -/
def tryRing (s : State) (p : Nat) : Option State := tryRingTrap s p <|> tryRingEvent s p

end Sys2Proof.Machine
end

