-- ==== Sys2Proof/Machine/Lambda.lean ====
section
/-!
DEFINITION. Lambda blocks: their layout and validation (R71, R72, R82-R84, R91), the lane operations (R85-R88), and the orders
in which a combiner may combine (R89, R90, R237).
-/
namespace Sys2Proof.Machine

/-- The lane word in 32 bits (R84). -/
def laneWord (x : Nat) : LaneWord :=
  { lop := bitsOf x 26 6, dst := bitsOf x 22 4, a := bitsOf x 18 4, b := bitsOf x 14 4, c := bitsOf x 10 4
    imm := bitsOf x 0 10 }

/-- How many sources a lane operation names: A, AB or ABC (R71). -/
def laneSources (lop : Nat) : Nat :=
  if lop = 0x1F then 0
  else if [0x03, 0x13, 0x1E].contains lop then 3
  else if [0x0B, 0x0F, 0x16, 0x17, 0x20, 0x21, 0x22, 0x23, 0x24, 0x25, 0x2A, 0x2C, 0x2D, 0x2E, 0x2F].contains lop then 1
  else 2

/-- The sources that a lane word reads. -/
def LaneWord.sources (w : LaneWord) : List Nat := [w.a, w.b, w.c].take (laneSources w.lop)

/-- A nonzero field that R71 does not name for the lop. -/
def LaneWord.stray (w : LaneWord) : Bool :=
  (([w.a, w.b, w.c].drop (laneSources w.lop)).any (fun x => x ≠ 0))
    || (!(w.lop = 0x0F || w.lop = 0x1F) && decide (w.imm ≠ 0))

/-- A header's block, without its words (R83). -/
def blockOf (h ident : Nat) (words : List LaneWord) : Block :=
  { nin := bitsOf h 6 3, nout := bitsOf h 9 3, ntmp := bitsOf h 12 4, attrs := bitsOf h 16 4, pair := bitOf h 20
    ident := ident, words := words }

/-- The header checks of R91: the reason of the first that fails. -/
def headerReason (h : Nat) : Option Nat :=
  let b := blockOf h 0 []
  let len := bitsOf h 0 6
  if len = 0 ∨ len > 32 ∨ b.nin > 4 ∨ b.nout = 0 ∨ b.nout > 4 ∨ b.ntmp > 8 ∨ h / 2 ^ 21 ≠ 0 then some 2
  else if (bitOf b.attrs 1 && !bitOf b.attrs 0) || (decide (b.attrs ≠ 0) && decide (b.nin ≠ 2 ∨ b.nout ≠ 1)) then some 3
  else none

/-- A source that names no register of the block (reason 0x07). -/
def Block.badSource (b : Block) (x : Nat) : Bool :=
  if x < 4 then decide (x ≥ b.nin) else if x < 8 then decide (x ≥ 4 + b.nout) else decide (x ≥ 8 + b.ntmp)

/-- The lowest failing reason of a lane word, given the registers that earlier words write (R91). -/
def Block.wordReason (b : Block) (written : List Nat) (w : LaneWord) : Option Nat :=
  if w.lop ≥ 0x30 then some 4
  else if w.stray then some 5
  else if !b.pair && decide (0x26 ≤ w.lop) && decide (w.lop ≤ 0x2D) then some 6
  else if w.sources.any (fun x => b.badSource x) then some 7
  else if w.sources.any (fun x => decide (x ≥ 4) && !written.contains x) then some 8
  else if w.dst < 4 || b.badSource w.dst then some 9
  else none

/-- The first lane word that fails, with its index, else the outputs (R91): reason and index byte. -/
def Block.wordsReason (b : Block) : Nat → List Nat → List LaneWord → Option (Nat × Nat)
  | _, written, [] =>
    if (upFrom 4 b.nout).all (fun x => written.contains x) then none else some (0x0A, 0xFF)
  | i, written, w :: rest =>
    match b.wordReason written w with
    | some r => some (r, i)
    | none => b.wordsReason (i + 1) (w.dst :: written) rest

/-- The BADLAMBDA trap (R91, R415). -/
def badLambda (reason index lbid : Nat) : TrapInfo :=
  { cause := 0x09, detail := reason + 256 * index, lbid := lbid }

/-- A result with its flags, on one 32-bit half (R87). -/
abbrev Half := Nat × Nat

/-- A Boolean as a comparison writes it (R87). -/
def flagWord (b : Bool) : Nat := bit b

/-- Lane operations 0x00-0x25, 0x2E and 0x2F on 32-bit words (R87). -/
def laneHalf (lop imm a b c : Nat) : Half :=
  let si (x : Nat) : Int := toSigned 32 x
  let f (x : Nat) : FVal := readFloat 8 x
  let i : Nat := ofInt 32 (toSigned 10 imm)
  match lop with
  | 0x00 => ((a + b) % 2 ^ 32, 0)
  | 0x01 => (ofInt 32 ((a : Int) - b), 0)
  | 0x02 => (a * b % 2 ^ 32, 0)
  | 0x03 => ((a * b + c) % 2 ^ 32, 0)
  | 0x04 => (if si b < si a then b else a, 0)
  | 0x05 => (if si a < si b then b else a, 0)
  | 0x06 => (min a b, 0)
  | 0x07 => (max a b, 0)
  | 0x08 => (Nat.land a b, 0)
  | 0x09 => (Nat.lor a b, 0)
  | 0x0A => (Nat.xor a b, 0)
  | 0x0B => (2 ^ 32 - 1 - a, 0)
  | 0x0C => (a * 2 ^ (b % 32) % 2 ^ 32, 0)
  | 0x0D => (a / 2 ^ (b % 32), 0)
  | 0x0E => (ofInt 32 (si a / 2 ^ (b % 32)), 0)
  | 0x0F => ((a + i) % 2 ^ 32, 0)
  | 0x10 => floatAdd 8 1 (f a) (f b)
  | 0x11 => floatSub 8 1 (f a) (f b)
  | 0x12 => floatMul 8 1 (f a) (f b)
  | 0x13 => floatFma 8 1 (f a) (f b) (f c)
  | 0x14 => floatMinMax 8 false a b
  | 0x15 => floatMinMax 8 true a b
  | 0x16 => (Nat.xor a (2 ^ 31), 0)
  | 0x17 => (a % 2 ^ 31, 0)
  | 0x18 => (flagWord (a = b), 0)
  | 0x19 => (flagWord (si a < si b), 0)
  | 0x1A => (flagWord (a < b), 0)
  | 0x1B => (flagWord (valueEq (f a) (f b)), nvSig (f a) (f b))
  | 0x1C => (flagWord (valueLt (f a) (f b)), nvAny (f a) (f b))
  | 0x1D => (flagWord (valueLt (f a) (f b) || valueEq (f a) (f b)), nvAny (f a) (f b))
  | 0x1E => (if a ≠ 0 then b else c, 0)
  | 0x1F => (i, 0)
  | 0x20 => intToFloat 8 1 false (si a)
  | 0x21 =>
    let (k, fl) := floatToInt 2 (-(2 ^ 31)) (2 ^ 31 - 1) (f a)
    (ofInt 32 k, fl)
  | 0x22 => widenFloat 8 9 (a % 2 ^ 16)
  | 0x23 => narrowFloat 9 1 false (f a)
  | 0x24 => widenFloat 8 10 (a % 2 ^ 16)
  | 0x25 => narrowFloat 10 1 false (f a)
  | 0x2F => (popCount 32 a, 0)
  | _ => (a, 0)

/-- The low and high words of a pair (R86). -/
def loOf (x : Nat) : Nat := x % 2 ^ 32
def hiOf (x : Nat) : Nat := x / 2 ^ 32 % 2 ^ 32
/-- A pair from its words. -/
def pairOf (lo hi : Nat) : Nat := lo % 2 ^ 32 + hi % 2 ^ 32 * 2 ^ 32

/-- The pair operations 0x26-0x2D (R88). -/
def lanePair (lop a b : Nat) : Nat × Nat :=
  let f (x : Nat) : FVal := readFloat 8 x
  match lop with
  | 0x26 => ((a + b) % 2 ^ 64, 0)
  | 0x27 =>
    let r := floatMul 8 1 (f (loOf b)) (f (loOf a))
    let q := floatFma 8 1 (f (loOf b)) (f (hiOf a)) (f (hiOf b))
    (pairOf r.1 q.1, Nat.lor r.2 q.2)
  | 0x28 =>
    let x := toSigned 32 (loOf a)
    let y := toSigned 32 (loOf b)
    (if x < y ∨ (x = y ∧ hiOf b < hiOf a) then b else a, 0)
  | 0x29 =>
    let x := toSigned 32 (loOf a)
    let y := toSigned 32 (loOf b)
    (if y < x ∨ (x = y ∧ hiOf b < hiOf a) then b else a, 0)
  | 0x2A => (pairOf (hiOf a) (loOf a), 0)
  | 0x2B => (pairOf (loOf a) (loOf b), 0)
  | 0x2C => (loOf a, 0)
  | _ => (hiOf a, 0)

/-- One lane operation (R85, R86). -/
def laneOp (pair : Bool) (w : LaneWord) (a b c : Nat) : Nat × Nat :=
  if 0x26 ≤ w.lop ∧ w.lop ≤ 0x2D then lanePair w.lop a b
  else
    let lo := laneHalf w.lop w.imm (loOf a) (loOf b) (loOf c)
    if pair then
      let hi := laneHalf w.lop w.imm (hiOf a) (hiOf b) (hiOf c)
      (pairOf lo.1 hi.1, Nat.lor lo.2 hi.2)
    else lo

/-- The lane words run in order over the registers (R85). -/
def runLanes (pair : Bool) : FMap Nat → Nat → List LaneWord → FMap Nat × Nat
  | l, fl, [] => (l, fl)
  | l, fl, w :: rest =>
    let r := laneOp pair w (FMap.get 0 l w.a) (FMap.get 0 l w.b) (FMap.get 0 l w.c)
    runLanes pair (FMap.set 0 l w.dst r.1) (Nat.lor fl r.2) rest

/-- `apply_block` of R85: the first output, and the flags. -/
def Block.apply (b : Block) (inputs : List Nat) : Nat × Nat :=
  let l := ((upTo b.nin).zip inputs).foldl (fun l p => FMap.set 0 l p.1 p.2) []
  let r := runLanes b.pair l 0 b.words
  (FMap.get 0 r.1 4, r.2)

/-- The block as a combiner: l0 the earlier operand, l1 the later (R89). -/
def Block.combine (b : Block) (x y : Nat) : Nat × Nat := b.apply [x, y]

/-- An element taken out of a list at a place. -/
def pickAt (i : Nat) (xs : List Nat) : Option (Nat × List Nat) :=
  match xs[i]? with
  | some x => some (x, xs.take i ++ xs.drop (i + 1))
  | none => none

/-- The list in an order of the device's choosing, with the draws used up. -/
def shuffle : Nat → Nat → List Nat → List Nat × Nat
  | 0, d, xs => (xs, d)
  | n + 1, d, xs =>
    if xs.length ≤ 1 then (xs, d)
    else
      match pickAt (Config.freeChoice d % xs.length) xs with
      | some (x, rest) =>
        let r := shuffle n (d + 1) rest
        (x :: r.1, r.2)
      | none => (xs, d)

/-- A value with the identity combined to its left or its right, `n` times (R89). -/
def joinIdentity (op : Nat → Nat → Nat × Nat) (i : Nat) : Nat → Nat → Nat → Nat → Nat × Nat × Nat
  | 0, d, x, fl => (x, fl, d)
  | n + 1, d, x, fl =>
    let v := if Config.freeChoice d % 2 = 0 then op i x else op x i
    joinIdentity op i n (d + 1) v.1 (Nat.lor fl v.2)

/-- A value with the identity, where there is one, combined with it as often as the device chooses (R89). -/
def withIdentity (op : Nat → Nat → Nat × Nat) (ident : Option Nat) (d x fl : Nat) : Nat × Nat × Nat :=
  match ident with
  | none => (x, fl, d)
  | some i => joinIdentity op i (Config.freeChoice d) (d + 1) x fl

/-- A strict left fold (R237), with the identity at any point where there is one (R89): value, flags, draws. -/
def foldLeft (op : Nat → Nat → Nat × Nat) (ident : Option Nat) : Nat → Nat → Nat → List Nat → Nat × Nat × Nat
  | d, x, fl, [] => (x, fl, d)
  | d, x, fl, y :: t =>
    let y := withIdentity op ident d y fl
    let v := op x y.1
    let z := withIdentity op ident y.2.2 v.1 (Nat.lor y.2.1 v.2)
    foldLeft op ident z.2.2 z.1 z.2.1 t

/-- A bracketing of the operands of the device's choosing: value, flags, draws (R89). -/
def bracket (op : Nat → Nat → Nat × Nat) (ident : Option Nat) : Nat → Nat → List Nat → Nat × Nat × Nat
  | 0, d, xs => (xs.headD 0, 0, d)
  | n + 1, d, xs =>
    match xs with
    | [] => (0, 0, d)
    | [x] => withIdentity op ident d x 0
    | _ =>
      let k := 1 + Config.freeChoice d % (xs.length - 1)
      let l := bracket op ident n (d + 1) (xs.take k)
      let r := bracket op ident n l.2.2 (xs.drop k)
      let v := op l.1 r.1
      withIdentity op ident r.2.2 v.1 (Nat.lor (Nat.lor l.2.1 r.2.1) v.2)

/-- Each contribution as often as the device chooses, at least once (IDEM, R89). -/
def repeated : Nat → List Nat → List Nat × Nat
  | d, [] => ([], d)
  | d, x :: t =>
    let r := repeated (d + 1) t
    (List.replicate (1 + Config.freeChoice d) x ++ r.1, r.2)

/-- `fold` of R234 under effective attributes: strictly left with none of them, else in some order that they allow, with the
identity and idempotence rights that they give (R89, R90, R237). -/
def foldAllowed (b : Block) (attrs : Nat) (draws : Nat) (xs : List Nat) : Nat × Nat × Nat :=
  let ident := if bitOf attrs 2 then some b.ident else none
  let rep := if bitOf attrs 3 then repeated draws xs else (xs, draws)
  if bitOf attrs 0 then
    let ordered := if bitOf attrs 1 then shuffle rep.1.length rep.2 rep.1 else rep
    bracket b.combine ident ordered.1.length ordered.2 ordered.1
  else
    match rep.1 with
    | [] => (0, 0, draws)
    | x :: t =>
      let first := withIdentity b.combine ident rep.2 x 0
      foldLeft b.combine ident first.2.2 first.1 first.2.1 t

end Sys2Proof.Machine
end

