-- ==== Sys2Proof/Machine/Monitors.lean ====
section
/-!
DEFINITION. The monitor units of a die (R448, R449): their statistics, and what the events of the machine are sampled as.
-/
namespace Sys2Proof.Machine

/-- A monitor unit of a die (R448). -/
def State.monitor (s : State) (die unit : Nat) : Monitor := FMap.get {} (s.dieAt die).monitors unit

/-- `s` with a monitor unit replaced. -/
def State.setMonitor (s : State) (die unit : Nat) (m : Monitor) : State :=
  let d := s.dieAt die
  s.setDie die { d with monitors := FMap.set {} d.monitors unit m }

/-- One sample recorded (R449). -/
def Monitor.sample (m : Monitor) (x : Nat) : Monitor :=
  let v := Nat.min x (2 ^ 32 - 1)
  let b := Nat.min 31 (if v = 0 then 0 else log2Floor v + 1)
  { m with
    min := Nat.min m.min v, max := Nat.max m.max v, count := Nat.min (m.count + 1) (2 ^ 48 - 1)
    bins := FMap.set 0 m.bins b (Nat.min (FMap.get 0 m.bins b + 1) (2 ^ 32 - 1)) }

/-- EN of a unit (R448). -/
def Monitor.on (m : Monitor) : Bool := m.config.getLsbD 63
/-- SRC of a unit (R448). -/
def Monitor.src (m : Monitor) : Nat := bitsOf m.config.toNat 40 8

/-- What a filter says of an event: `all` passes every event, another value those of that number; none where the event has no such
number, so that the manual does not say whether it passes. -/
def filterPasses (field all : Nat) (num : Option Nat) : Option Bool :=
  if field = all then some true else num.map (fun n => decide (n = field))

/-- PFILT and QUAL of a unit, of an event of a partition and of a core or port (R448). -/
def Monitor.passes (m : Monitor) (part qual : Option Nat) : Option Bool :=
  match filterPasses (bitsOf m.config.toNat 48 8) 0xFF part, filterPasses (bitsOf m.config.toNat 0 32) 0xFFFFFFFF qual with
  | some false, _ | _, some false => some false
  | some true, some true => some true
  | _, _ => none

/-- One event of a source on a die, sampled by every unit that samples it (R448): with a number of cycles where the state holds it, and
else with one of the device's. Whether an event without a partition, core or port passes a filter on them is the device's (log entry
18). -/
def sampleAll (s : State) (die src : Nat) (part qual value : Option Nat) : State :=
  let units := (upTo 64).filter (fun u => (s.monitor die u).on && decide ((s.monitor die u).src = src))
  if units = [] then s
  else
    let (v, s) := match value with | some v => (v, s) | none => s.choose (2 ^ 32)
    units.foldl (fun s u =>
      let m := s.monitor die u
      match m.passes part qual with
      | some true => s.setMonitor die u (m.sample v)
      | some false => s
      | none => let (k, s) := s.choose 2; if k = 0 then s else s.setMonitor die u (m.sample v)) s

/-- One event of a group's core sampled (R448). -/
def sampleCore (s : State) (core src part : Nat) (value : Option Nat) : State := sampleAll s (dieOf core) src (some part) (some core) value

/-- An event of the package that belongs to no one die, sampled on a die of the device's choosing (log entry 18). -/
def State.count (s : State) (src : Nat) (part value : Option Nat) : State :=
  let (d, s) := s.choose Config.dies
  sampleAll s d src part none value

end Sys2Proof.Machine
end

