-- ==== Sys2Proof/Machine/VecCore.lean ====
section
/-!
DEFINITION. What the vector instructions share: the element loop of R200, its flags and exception mask (R194, R195), the
validity mask of R215, and the queue-exit checks of types and spans (R69, R177, R198).
-/
namespace Sys2Proof.Machine

/-- The type in force of a vector word (R69); the commit check has refused a word that has none. -/
def Grp.typeOf (g : Grp) (v : VView) : Nat := (typeInForce g.fmt v.ty v.ew).getD 8

/-- The rounding mode of a vector word (R173). -/
def Grp.rmOf (g : Grp) (v : VView) : Nat := roundMode v.rm g.vdrm

/-- The low `w` bits of a scalar operand (R200, R205). -/
def scalarLow (ops : List W64) (w : Nat) : Nat := (ops.headD 0).toNat % 2 ^ w

/-- The flags of a word's elements go to XFLAGS, and under XM to the exception mask, after its results (R194, R195). -/
def Grp.raiseElements (g : Grp) (v : VView) (xfl : List (Nat × Nat)) : Grp :=
  let g := g.vectorFlags (unionFlags g.vtail xfl)
  if v.xm = 1 then g.setMask v.xmd (exceptionMask g.vtail xfl) else g

/-- Values written to elements of width `w` of the operand at register `x`. -/
def Grp.putAll (g : Grp) (x w : Nat) (rs : List (Nat × Nat)) : Grp :=
  rs.foldl (fun h r => h.setElem x w r.1 r.2) g

/-- THE ELEMENT LOOP of R200: every active element gets its result, computed from the group before any is written (R201),
and raises its flags. `op` gives the result and flags of element `e`; `wd` is the destination's width. -/
def Grp.loop (g : Grp) (v : VView) (wd : Nat) (op : Nat → Nat × Nat) : Grp :=
  let rs := (g.activeList v.mreg).map (fun e => (e, op e))
  (g.putAll v.vd wd (rs.map (fun r => (r.1, r.2.1)))).raiseElements v (rs.map (fun r => (r.1, r.2.2)))

/-- Bits written to a mask register for the elements listed; every other bit is kept (R212, R213). -/
def Grp.putBits (g : Grp) (md : Nat) (bs : List (Nat × Bool)) : Grp :=
  g.setMask md (bs.foldl (fun m b => putBit m b.1 b.2) (g.mask md))

/-- The mask whose set bits are listed. -/
def maskOfList (es : List Nat) : Mask := es.foldl (fun m e => putBit m e true) 0

/-- The validity mask of R215, written under XM. -/
def Grp.putValid (g : Grp) (v : VView) (valid : List Nat) : Grp :=
  if v.xm = 1 then g.setMask v.xmd (maskOfList valid) else g

/-- A vector register operand of a word: register, width of its elements, and how many it holds. -/
structure Span where
  reg : Nat
  width : Nat
  count : Nat
  deriving DecidableEq, Repr

/-- The traps of span checks made together (R177). -/
def Grp.spanTraps (g : Grp) (l : List Span) : List (Option TrapInfo) :=
  l.map (fun p => g.spanTrap p.reg (g.span p.width p.count))

/-- The operands of a row that span at the width of the type in force (R177). -/
def VRow.spans (r : VRow) (v : VView) (w vl : Nat) : List Span := (r.vregs v).map (fun x => ⟨x, w, vl⟩)

/-- The type check of a word whose type is VCONF.FMT's, at the queue's exit (R69, R198). -/
def Grp.rowTrap (g : Grp) (r : VRow) (v : VView) : Option TrapInfo :=
  match typeInForce g.fmt v.ty v.ew with
  | none => some (illegal 7)
  | some t =>
    let rs := r.typeReasons v t
    if rs.contains 3 then some (illegal 3) else if rs.contains 7 then some (illegal 7) else none

end Sys2Proof.Machine
end

