-- ==== Sys2Proof/Machine/VecMem.lean ====
section
/-!
DEFINITION. Vector memory words (R325-R340), the remote instructions (R354-R356) and the peer-scratchpad words (R298, R299,
R334): their checks, the probe of R306, and how their accesses are performed. Elements are performed one by one at any
moment between vector issue and return: a turn of the agenda may perform one element early (log entry 1), and the return
event performs those that are left.
-/
namespace Sys2Proof.Machine

/-- What a vector memory word does at each element; an atomic by its FN of 0x43 (R337). -/
inductive MemOp where
  | load | store
  | atomic (fn : Nat) (u ret : Bool)
  | cas
  /-- `vcflush` and `vcwb` -/
  | line
  deriving DecidableEq, Repr

/-- A vector memory word of global memory. -/
structure MemWord where
  f : FM
  op : MemOp
  remote : Bool := false
  deriving DecidableEq, Repr

/-- An atomic of 0x43. -/
def MemWord.ofAtomic (f : FM) (fn : Nat) (remote : Bool := false) : MemWord :=
  ⟨f, .atomic fn (f.fof = 1) (FM.x f), remote⟩

/-- The global memory words (R325, R354). -/
def memWordOf : Instr → Option MemWord
  | .vld f => some ⟨f, .load, false⟩
  | .vst f => some ⟨f, .store, false⟩
  | .vaadd f => some (.ofAtomic f 0)
  | .vafadd f => some (.ofAtomic f 1)
  | .vaand f => some (.ofAtomic f 2)
  | .vaor f => some (.ofAtomic f 3)
  | .vaxor f => some (.ofAtomic f 4)
  | .vamin f => some (.ofAtomic f 5)
  | .vamax f => some (.ofAtomic f 6)
  | .vaswap f => some (.ofAtomic f 7)
  | .vacas f => some ⟨f, .cas, false⟩
  | .vcflush f | .vcwb f => some ⟨f, .line, false⟩
  | .rld f => some ⟨f, .load, true⟩
  | .rst f => some ⟨f, .store, true⟩
  | .raadd f => some (.ofAtomic f 0 true)
  | .rafadd f => some (.ofAtomic f 1 true)
  | .raor f => some (.ofAtomic f 3 true)
  | .ramin f => some (.ofAtomic f 5 true)
  | .ramax f => some (.ofAtomic f 6 true)
  | .raswap f => some (.ofAtomic f 7 true)
  | .rcas f => some ⟨f, .cas, true⟩
  | _ => none

/-- The rights an operation asks for (R302). -/
def MemOp.kind : MemOp → AccessKind
  | .load => .read
  | .store => .write
  | .atomic _ _ _ | .cas => .atomic
  | .line => .cache

/-- The operation writes the register operand (R328, R337, R339). -/
def MemOp.writesReg : MemOp → Bool
  | .load | .cas => true
  | .atomic _ _ ret => ret
  | _ => false

/-- The widths an operation accepts (R326, R337, R339). -/
def MemOp.widths : MemOp → List Nat
  | .load | .store | .line => [8, 16, 32, 64]
  | .atomic fn _ _ => if fn = 1 then [32] else [32, 64]
  | .cas => [32, 64]

/-- Whether the operation has a register operand in VD. -/
def MemOp.hasReg : MemOp → Bool
  | .line => false
  | _ => true

/-- The base address of a word, as read at issue (R201, R326). -/
def baseOf (ops : List W64) : W64 := ops.headD 0
/-- The byte stride of a word (R326). -/
def strideOf (ops : List W64) : W64 := ops.getD 1 0
/-- The target specification of a remote word (R354, R355). -/
def targetSpec (ops : List W64) : Nat := (ops.getD 2 0).toNat

/-- A target specification breaks R355. -/
def badSpec (x : Nat) : Bool :=
  decide (bitsOf x 20 44 ≠ 0) || decide (bitsOf x 13 3 ≠ 0) || (!bitOf x 18 && decide (bitsOf x 16 2 ≠ 0))

/-- The span checks of the register operands of an FM word (R326, R339). -/
def Grp.fmSpans (g : Grp) (f : FM) (w : Nat) (reg pair : Bool) : List (Option TrapInfo) :=
  let k := g.span w g.vl
  (if reg then [if pair then
      (if f.vd.toNat % k ≠ 0 then some (illegal 4)
       else if f.vd.toNat + 2 * k - 1 ≥ g.nreg then some (illegal 5) else none)
      else g.spanTrap f.vd.toNat k] else [])
  ++ (if f.am.toNat ≥ 2 then [g.spanTrap f.vi.toNat (g.span 32 g.vl)] else [])

/-- The accessed elements of a word with their addresses (R326, R327). -/
def Grp.addresses (g : Grp) (f : FM) (ops : List W64) : List (Nat × W64) :=
  let w := FM.esize g f
  (g.accessed f.mreg.toNat).map (fun e => (e, FM.addr g f (baseOf ops) (strideOf ops) w e))

/-- The first accessed element of a remote word that is misaligned (R354). -/
def alignFault (n : Nat) (l : List (Nat × W64)) : Option TrapInfo :=
  (l.find? (fun p => p.2.toNat % n ≠ 0)).map (fun p => { alignTrap p.2 with elem := p.1 })

/-- The width and span checks of a memory word, in the order of R416 (R326, R339). -/
def Grp.widthTrap (g : Grp) (f : FM) (widths : List Nat) (reg pair : Bool) : Option TrapInfo :=
  let n := FM.esize g f
  if widths.contains n then lowestTrap (g.fmSpans f n reg pair) else some (illegal 7)

/-- The queue-exit checks of a global memory word, but for the checks of its elements that the probe makes, in the order of
R416 (R326, R337, R339, R354, R355). -/
def Grp.memTrap (g : Grp) (w : MemWord) (ops : List W64) : Option TrapInfo :=
  firstTrap ([g.widthTrap w.f w.op.widths w.op.hasReg (w.op = .cas)]
    ++ (if w.remote then
        [if g.vl > 256 then some (illegal 4) else none, if badSpec (targetSpec ops) then some (illegal 13) else none,
         alignFault (FM.esize g w.f / 8) (g.addresses w.f ops)] else []))

/-- How a probe ends (R306). -/
inductive Probed where
  | ok (s : State) (accs : List Access)
  | trap (s : State) (info : TrapInfo)
  | wait (s : State)

/-- THE DAYBREAK PROBE over elements in ascending order (R306, R307, R327, R331): each distinct page is translated once.
`seen` holds the pages translated, `cut` that a fault-only-first load has been trimmed; `got` is reversed. -/
def probeFrom (part : Nat) (kind : AccessKind) (size align : Nat) (fof : Bool) :
    State → Seen → Bool → List Access → List (Nat × W64) → Probed
  | s, _, _, got, [] => .ok s got.reverse
  | s, seen, cut, got, (e, a) :: rest =>
    if a.toNat % align ≠ 0 then .trap s { alignTrap a with elem := e }
    else if cut then probeFrom part kind size align fof s seen cut got rest
    else
      match translateOnce s part a kind seen with
      | (.ok _ t, s, seen) => probeFrom part kind size align fof s seen cut (⟨e, size, a, t⟩ :: got) rest
      | (.fault d, s, seen) =>
        if fof && !got.isEmpty then probeFrom part kind size align fof s seen true got rest
        else .trap s { pageTrap d kind a with elem := e }
      | (.revoked l, s, seen) =>
        if fof && !got.isEmpty then probeFrom part kind size align fof s seen true got rest
        else .trap s { leaseTrap l a with elem := e }
      | (.wait, s, _) => .wait s

/-- The probe of a global memory word. -/
def probeWord (s : State) (g : Grp) (w : MemWord) (ops : List W64) : Probed :=
  let n := if w.op = .line then 1 else FM.esize g w.f / 8
  probeFrom g.part w.op.kind n n (w.op = .load && decide (w.f.fof = 1)) s [] false [] (g.addresses w.f ops)

/-- A fault-only-first load whose probe stopped short (R331). -/
def Grp.trims (g : Grp) (f : FM) (accs : List Access) : Bool :=
  decide (f.fof ≠ 0) && decide (accs.length < (g.accessed f.mreg.toNat).length)

/-- VL and VTAIL after a fault-only-first load whose probe stopped short (R331). -/
def Grp.trim (g : Grp) (f : FM) (accs : List Access) : Grp :=
  if f.fof = 0 then g
  else
    match (g.accessed f.mreg.toNat).drop accs.length with
    | [] => g
    | e :: _ => { g with vl := e, vtail := min g.vtail e }

/-- A committed memory word may start (R136, R148, R383, R386): release, the group's older accesses to the same bytes, the
cap; and without an accessed element an acquire as a fence of that kind (R332, R356, R386). -/
def memReady (s : State) (tag : Nat) (g : Grp) (f : FM) (fl : Flight) : Bool :=
  let id := fl.entry.id
  memoryAllowed s tag g
    && (!acquires fl.entry.instr || decide (g.accessed f.mreg.toNat ≠ []) || g.fencedBefore id f.ord.toNat f.scope.toNat)
    && (!f.ord.getLsbD 1 || g.quietBefore id f.scope.toNat)
    && fl.todo.all (fun a => !g.olderAccess id a)

/-- The zeros that a load writes: padding elements, and under H the helpers of quads with an active element (R328). -/
def Grp.loadZeros (g : Grp) (f : FM) : List (Nat × Nat) :=
  let act := g.activeList f.mreg.toNat
  let helpers := if FM.x f then
      (upFrom g.vl (roundUp g.vl 4 - g.vl)).filter (fun e => (upFrom (e / 4 * 4) 4).any (fun k => g.active f.mreg.toNat k))
    else []
  ((act.filter (fun e => g.vtail ≤ e)) ++ helpers).map (fun e => (e, 0))

/-- The register values that a word takes with it at vector issue: what it stores, its operands, or for a `cas` the
expected and the new values (R328, R337, R339). -/
def Grp.takeValues (g : Grp) (w : MemWord) (width : Nat) : List (Nat × Nat × Nat) :=
  let k := g.span width g.vl
  let x := w.f.vd.toNat
  match w.op with
  | .load | .line => []
  | .cas => (g.accessed w.f.mreg.toNat).map (fun e => (e, g.elem x width e, g.elem (x + k) width e))
  | _ => (g.accessed w.f.mreg.toNat).map (fun e => (e, g.elem x width e, 0))

/-- The value that an element takes with it. -/
def valueFor (vals : List (Nat × Nat × Nat)) (e : Nat) : Nat × Nat :=
  match vals.find? (fun p => p.1 = e) with
  | some p => p.2
  | none => (0, 0)

/-- One element performed at a device physical address: the state and the value for the register (R328, R336-R339). -/
def performAt (s : State) (op : MemOp) (width pa : Nat) (v : Nat × Nat) : State × Nat :=
  let old := s.memRead pa (width / 8)
  match op with
  | .load => (s, old)
  | .store => (s.memWrite pa (width / 8) v.1, 0)
  | .atomic fn u _ => (s.memWrite pa (width / 8) (atomicValue fn width u old v.1), old)
  | .cas => (if old = v.1 then s.memWrite pa (width / 8) v.2 else s, old)
  | .line => (s, 0)

/-- The same in a scratchpad, where a form's destination may lie (R228, R236). -/
def performSpad (s : State) (op : MemOp) (width key : Nat) (v : Nat × Nat) : State × Nat :=
  let old := Memory.readNat s.spad key (width / 8)
  let put (x : Nat) : State := { s with spad := Memory.writeNat s.spad key (width / 8) x }
  match op with
  | .store => (put v.1, 0)
  | .atomic fn u _ => (put (atomicValue fn width u old v.1), old)
  | _ => (s, old)

/-- An instruction that has completed leaves the group's flights: its counter returns and its flags fall (R48, R151). -/
def Grp.complete (g : Grp) (e : VEntry) : Grp :=
  let g := { g.lowerFlags e.flags with flights := g.flights.filter (fun f => f.entry.id ≠ e.id) }.afterOrd (ordOf e.instr)
  match e.path with
  | some p => g.lower p e.id
  | none => g

/-- A flight in place of the one with its number. -/
def Grp.setFlight (g : Grp) (f : Flight) : Grp :=
  { g with flights := g.flights.map (fun h => if h.entry.id = f.entry.id then f else h) }

/-- The REMOTE event of an instruction with failed elements (R330, R360, R423). -/
def remoteEvent (g : Grp) (tag : Nat) (e : VEntry) (failed : List (Nat × Nat × Nat)) : Option Report :=
  match failed.foldl (fun (m : Option (Nat × Nat × Nat)) p => match m with
      | some q => if p.1 < q.1 then some p else some q
      | none => some p) none with
  | none => none
  | some (el, reason, dev) =>
    some { cause := 0x19, detail := reason, part := g.part, gtag := tag, launch := g.launch % 2 ^ 32, pc := e.pc
           hdr := e.hdr, a0 := dev, a1 := el }

/-- A memory word completes: its register values are written, its failed elements as +0 (R328, R330, R337, R339, R356). The monitors
sample a load (R448). -/
def finishWord (s : State) (tag : Nat) (g : Grp) (w : MemWord) (f : Flight) : State :=
  let rs := if w.op.writesReg then f.got ++ f.failed.map (fun p => (p.1, 0)) else []
  let g' := (g.putAll w.f.vd.toNat f.width rs).complete f.entry
  let s := s.setGrp tag g'
  let s := if w.op = .load then sampleCore s g.core 1 g.part none else s
  match remoteEvent g tag f.entry f.failed with
  | some r => postEvent s r
  | none => s

/-- The value of a loaded element: bytes that a younger scalar load of the group has read already are as that load read them
(R380). -/
def Grp.elementRead (g : Grp) (id : Nat) (op : MemOp) (width space place x : Nat) : Nat :=
  if op = .load then g.valueRead id space place (width / 8) x else x

/-- Performing of the elements of a flight whose place is at hand (R329, R338): in order under AM = 11, where the first that
is not at hand ends it. The state, what is left, and the values for the register. `one` performs at most one element. -/
def performList (g : Grp) (id : Nat) (op : MemOp) (width : Nat) (ordered one : Bool) (vals : List (Nat × Nat × Nat)) :
    State → List Access → State × List Access × List (Nat × Nat)
  | s, [] => (s, [], [])
  | s, a :: rest =>
    match resolve s a.target with
    | .at pa =>
      let (s, x) := performAt s op width pa (valueFor vals a.elem)
      let x := g.elementRead id op width 0 pa x
      if one then (s, rest, [(a.elem, x)])
      else
        let r := performList g id op width ordered one vals s rest
        (r.1, r.2.1, (a.elem, x) :: r.2.2)
    | .spad key =>
      let (s, x) := performSpad s op width key (valueFor vals a.elem)
      if one then (s, rest, [(a.elem, x)])
      else
        let r := performList g id op width ordered one vals s rest
        (r.1, r.2.1, (a.elem, x) :: r.2.2)
    | _ =>
      if ordered then (s, a :: rest, [])
      else
        let r := performList g id op width ordered one vals s rest
        (r.1, a :: r.2.1, r.2.2)

/-- The lender's lease of an access, where it lies there now. -/
def leaseOf (s : State) (a : Access) : Option Nat :=
  match resolve s a.target with
  | .leased l _ => some l
  | _ => none

/-- The leading accesses of a list that lie at one lender; without element order, all of them. -/
def leasedRun (s : State) (l : Nat) (ordered : Bool) (accs : List Access) : List Access :=
  if ordered then accs.takeWhile (fun a => leaseOf s a = some l) else accs.filter (fun a => leaseOf s a = some l)

/-- What takes a virtual address to its offset within the region, by the leaf of the first access of a request (R302, R330);
the same for every access where software maps the region as R367 asks. -/
def leaseShift (s : State) (accs : List Access) : W64 :=
  match accs with
  | a :: _ => (match resolve s a.target with | .leased _ off => BitVec.ofNat 64 off - a.va | _ => 0)
  | [] => 0

/-- The packet KIND of an operation (R357); a cache operation sends none. -/
def MemOp.packetKind : MemOp → Nat
  | .load | .line => 1
  | .store => 2
  | .atomic _ _ _ => 3
  | .cas => 4

/-- The FN of an atomic's packet: of 0x43 for a T3 access, of 0x4A for a remote instruction (R357, log entry 17). -/
def packetFn (op : MemOp) (remote : Bool) : Nat :=
  match op with
  | .atomic fn _ _ => if !remote then fn else (match fn with | 0 => 0 | 1 => 1 | 3 => 2 | 5 => 3 | 6 => 4 | _ => 5)
  | _ => 0

/-- Elements that MASK can name (R357): one request of a T3 access names elements of one block of as many. -/
abbrev maskBlock : Nat := 256

/-- The request packet of some elements of a word (R330, R356, R357), numbered from `first`: `addr` is the base plus offset as the target
takes it. -/
def wordPacket (s : State) (tag : Nat) (w : MemWord) (f : Flight) (accs : List Access) (dst ftag : Nat) (leased ordf : Bool)
    (addr : W64) (first : Nat := 0) : Packet :=
  let step : W64 :=
    match w.f.am.toNat with
    | 0 => BitVec.ofNat 64 (f.width / 8)
    | 1 => strideOf f.entry.ops
    | _ => 0
  let start := baseOf f.entry.ops + BitVec.ofInt 64 (FM.offset w.f f.width)
  { kind := w.op.packetKind, vc := if w.op = .store then 1 else 0, ordf := ordf, ret := w.op.writesReg && w.op ≠ .load
    am := w.f.am.toNat, fn := packetFn w.op w.remote, esize := f.width
    u := (match w.op with | .atomic _ u _ => u | _ => false)
    src := s.fabric.device, dst := dst, ftag := ftag, leased := leased, gtag := tag, addr := addr + BitVec.ofNat 64 first * step
    stride := if w.f.am = 1 then strideOf f.entry.ops else 0
    mask := accs.map (fun a => a.elem - first)
    index := if w.f.am.toNat ≥ 2 then accs.map (fun a => (a.va - start).setWidth 32) else []
    data := if w.op = .load ∨ w.op = .line then [] else accs.map (fun a => (valueFor f.vals a.elem).1)
    data2 := if w.op = .cas then accs.map (fun a => (valueFor f.vals a.elem).2) else [] }

/-- The request of a vector-side word. -/
def wordRequest (s : State) (tag : Nat) (g : Grp) (f : Flight) (p : Packet) : Request :=
  { dst := p.dst, seq := s.nextSeq p.dst, what := .packet p, who := .vector tag f.entry.id, part := g.part
    launch := g.launch, pc := f.entry.pc, hdr := f.entry.hdr, ordf := p.ordf }

/-- The request to a lender for the next elements that lie there (R330); none where no element does. -/
def askLender (s : State) (tag : Nat) (g : Grp) (w : MemWord) (f : Flight) : Option State := do
  let ordered := decide (w.f.am = 3)
  let l ← if ordered then (f.todo.head?).bind (leaseOf s) else f.todo.findSome? (leaseOf s)
  let all := leasedRun s l ordered f.todo
  let block := ((all.head?.map (fun a => a.elem)).getD 0) / maskBlock
  let run := if ordered then all.takeWhile (fun a => a.elem / maskBlock = block) else all.filter (fun a => a.elem / maskBlock = block)
  let start := baseOf f.entry.ops + BitVec.ofInt 64 (FM.offset w.f f.width)
  let p := wordPacket s tag w f run (lenderOf s l) l true false (start + leaseShift s run) (maskBlock * block)
  let f' := { f with todo := f.todo.filter (fun a => !run.contains a), waits := f.waits ++ [(p.dst, s.nextSeq p.dst)] }
  some ((s.setGrp tag (g.setFlight f')).request { wordRequest s tag g f p with first := maskBlock * block })

/-- The next thing that a memory word under way does: it performs the elements at hand (of an atomic one at a time), asks a
lender for those that lie there, or completes. A cache operation has no effect on what memory holds (log entry 6). None where
it can do nothing now. -/
def advanceWord (s : State) (tag : Nat) (g : Grp) (w : MemWord) (f : Flight) : Option State :=
  if f.phase ≠ .accesses then none
  else if w.op = .line then some (finishWord s tag g w f)
  else if f.todo = [] then (if f.waits = [] then some (finishWord s tag g w f) else none)
  else if acquires f.entry.instr && f.todo.any s.arrivingAt then none
  else
    let ordered := decide (w.f.am = 3)
    if ordered && decide (f.waits ≠ []) then none
    else
      let r := performList g f.entry.id w.op f.width ordered (w.op.kind = .atomic) f.vals s f.todo
      if r.2.2 = [] then askLender s tag g w f
      else
        let f' := { f with todo := r.2.1, got := f.got ++ r.2.2 }
        if f'.todo = [] ∧ f'.waits = [] then some (finishWord r.1 tag g w f') else some (r.1.setGrp tag (g.setFlight f'))

/-- One element performed early, by a turn of the agenda (log entry 1). -/
def earlyElement (s : State) (tag : Nat) (g : Grp) (w : MemWord) (f : Flight) (e : Nat) : Option State := do
  let a ← f.todo.find? (fun a => a.elem = e)
  if f.phase ≠ .accesses ∨ (acquires f.entry.instr && s.arrivingAt a)
      ∨ (w.f.am = 3 ∧ (f.todo.head? ≠ some a ∨ f.waits ≠ [])) then none
  else
    match resolve s a.target with
    | .at pa =>
      let (s, x) := performAt s w.op f.width pa (valueFor f.vals e)
      let x := g.elementRead f.entry.id w.op f.width 0 pa x
      some (s.setGrp tag (g.setFlight { f with todo := f.todo.filter (fun b => b ≠ a), got := f.got ++ [(e, x)] }))
    | _ => none

/-- The sectors of a list of accesses, whose requests pass the core's port (R322). -/
def sectorCount (accs : List Access) : Nat := (accs.map (fun a => a.va.toNat / 32)).eraseDups.length

/-- The tokens that a memory word takes as it starts (R322): one for each sector; a cache operation asks for none. -/
def wordTokens (w : MemWord) (fl : Flight) : Nat := if w.op = .line then 0 else sectorCount fl.todo

/-- The start of a global memory word at vector issue: it takes its values with it; without an accessed element it is complete
(R151, R332). -/
def startWord (s : State) (tag : Nat) (g : Grp) (w : MemWord) (fl : Flight) : State :=
  let width := FM.esize g w.f
  let f := { fl with phase := .accesses, width := width, vals := g.takeValues w width
                     got := if w.op = .load && !fl.trimmed then g.loadZeros w.f else [] }
  if (g.activeList w.f.mreg.toNat) = [] then s.setGrp tag (g.complete f.entry)
  else if f.todo = [] then finishWord s tag (g.setFlight f) w f
  else s.setGrp tag (g.setFlight f)

/-- The start of a remote word (R356): one packet for its accessed elements. DESIGN CHOICE (log entry 35): the padding elements of an `rld`
(R181) keep what they hold. -/
def startRemote (s : State) (tag : Nat) (g : Grp) (w : MemWord) (fl : Flight) : State :=
  let width := FM.esize g w.f
  let accs := (g.addresses w.f fl.entry.ops).map (fun p => (⟨p.1, width / 8, p.2, .phys 0⟩ : Access))
  let spec := targetSpec fl.entry.ops
  let f := { fl with phase := .remote, width := width, vals := g.takeValues w width }
  if accs = [] then s.setGrp tag (g.complete f.entry)
  else
    let p := wordPacket s tag w f accs (bitsOf spec 0 13) (s.partAt g.part).pftag false (bitOf spec 19)
      (baseOf f.entry.ops + BitVec.ofInt 64 (FM.offset w.f width))
    let r := { wordRequest s tag g f p with group := if bitOf spec 18 then some (bitsOf spec 16 2) else none }
    (s.setGrp tag (g.setFlight { f with waits := [(p.dst, s.nextSeq p.dst)] })).request r

/-- An access that goes, or may come to go, to a device (R330). -/
def State.toLender (s : State) (dst : Nat) (a : Access) : Bool :=
  match resolve s a.target with
  | .leased l _ => decide (lenderOf s l = dst)
  | .locked => true
  | _ => false

/-- An access of the group older than `id` to a T3 page of the device has still to be asked for (R330, R362). -/
def Grp.unasked (g : Grp) (s : State) (dst id : Nat) : Bool :=
  g.flights.any (fun f => decide (f.entry.id < id) && f.todo.any (s.toLender dst))
    || g.loads.any (fun l => decide (l.id < id) && decide (l.waits = []) && (match l.acc with | some a => s.toLender dst a | none => false))
    || g.stores.any (fun e => decide (e.id < id) && decide (e.waits = [])
      && (match e.act with | .store a _ => s.toLender dst a | _ => false))

/-- A committed remote word may start (R362): under ORDF its packet is made once every older request of the group to its destination
has been. -/
def remoteReady (s : State) (g : Grp) (fl : Flight) : Bool :=
  let spec := targetSpec fl.entry.ops
  !bitOf spec 19 || !g.unasked s (bitsOf spec 0 13) fl.entry.id

/-- The answer to a request of a vector-side word: the elements that failed, and the values of those that did not, in
ascending order (R357, R359, R365). A remote word whose last request is answered completes (R356). -/
def answerWord (s : State) (tag id dst seq : Nat) (mask failed data : List Nat) (reason : Nat) : State :=
  match s.grp tag with
  | none => s
  | some g =>
    match g.flights.find? (fun f => f.entry.id = id && f.waits.contains (dst, seq)) with
    | none => s
    | some f =>
      let good := mask.filter (fun e => !failed.contains e)
      let f := { f with
        waits := f.waits.filter (fun p => p ≠ (dst, seq))
        got := f.got ++ good.zip data
        failed := f.failed ++ (mask.filter (fun e => failed.contains e)).map (fun e => (e, reason, dst)) }
      match memWordOf f.entry.instr with
      | some w =>
        if f.phase = .remote ∧ f.waits = [] then finishWord s tag (g.setFlight f) w f else s.setGrp tag (g.setFlight f)
      | none => s.setGrp tag (g.setFlight f)

/-- The widths that scratchpad words accept (R326). -/
def Grp.spadWordTrap (g : Grp) (f : FM) : Option TrapInfo := g.widthTrap f [8, 16, 32, 64] true false

/-- The offset of each accessed element of a `vlds` or `vsts`, exact (R326). -/
def Grp.spadOffsets (g : Grp) (f : FM) (ops : List W64) : List (Nat × Int) :=
  let w := FM.esize g f
  (g.accessed f.mreg.toNat).map (fun e => (e, FM.addrExact g f (baseOf ops) (strideOf ops) w e))

/-- The first accessed element that fails ALIGN or SPBOUND (R327). -/
def Grp.spadFault (g : Grp) (f : FM) (ops : List W64) : Option TrapInfo :=
  let n := FM.esize g f / 8
  firstTrap ((g.spadOffsets f ops).map (fun p =>
    let a := BitVec.ofInt 64 p.2
    if p.2 % (n : Int) ≠ 0 then some { alignTrap a with elem := p.1 }
    else if g.inSpad p.2 n then none else some { spboundTrap a with elem := p.1 }))

/-- A scratchpad store of the store buffer older than `id` (R148). -/
def Grp.scratchStores (g : Grp) (id : Nat) : Bool :=
  g.stores.any (fun e => e.id < id && (match e.act with | .scratch _ _ _ => true | _ => false))

/-- A committed word that still touches the group's scratchpad or another core's (R148). -/
def Grp.peerFlights (g : Grp) (id : Nat) : Bool :=
  g.flights.any (fun f => f.entry.id < id &&
    ((match f.entry.instr with | .vldp _ | .vstp _ => true | _ => false) || f.entry.writesScratch))

/-- A scratchpad or peer word may be performed now (R148, R332, R386). -/
def spadReady (s : State) (tag : Nat) (g : Grp) (f : FM) (id : Nat) : Bool :=
  memoryAllowed s tag g && (!f.ord.getLsbD 1 || g.quietBefore id f.scope.toNat) && !g.scratchStores id && !g.peerFlights id
    && (!f.ord.getLsbD 0 || decide (g.accessed f.mreg.toNat ≠ []) || g.fencedBefore id f.ord.toNat f.scope.toNat)
    && !g.loads.any (fun l => l.id < id && (match l.acc with | some a => !a.target.global | none => false))

/-- `vlds` performed at its commit (R328, R333). -/
def startVlds (s : State) (tag : Nat) (g : Grp) (f : FM) (fl : Flight) : State :=
  let w := FM.esize g f
  let read (off : Nat) : Nat := g.elementRead fl.entry.id .load w 1 (spadKey g.core off) (s.spadRead g.core off (w / 8))
  let rs := (g.spadOffsets f fl.entry.ops).map (fun p => (p.1, read p.2.toNat))
  s.setGrp tag ((g.putAll f.vd.toNat w (rs ++ g.loadZeros f)).complete fl.entry)

/-- `vsts` performed at its commit (R328, R333). Two elements that write the same bytes leave the higher-numbered one's,
or, but under AM = 11, either one's, as the device chooses (R329). -/
def startVsts (s : State) (tag : Nat) (g : Grp) (f : FM) (fl : Flight) : State :=
  let w := FM.esize g f
  let ps := (g.spadOffsets f fl.entry.ops).map (fun p => (p.2.toNat, g.elem f.vd.toNat w p.1))
  let clash := ps.any (fun p => (ps.filter (fun q => q.1 = p.1)).length > 1)
  let (ps, s) :=
    if f.am ≠ 3 && clash then
      let (k, s) := s.choose ps.length
      (ps.drop k ++ ps.take k, s)
    else (ps, s)
  let s := ps.foldl (fun s p => s.spadWrite g.core p.1 (w / 8) p.2) s
  s.setGrp tag (g.complete fl.entry)

/-- The scratchpad byte key that a peer index word names for a group, or its fault (R298, R299). -/
def peerKey (s : State) (g : Grp) (word bytes : Nat) : Option (Nat × Nat) :=
  let core := bitsOf word 20 12
  let off := bitsOf word 0 17
  let u := s.coreAt core
  if core ≥ Config.cores || decide (bitsOf word 17 3 ≠ 0) || decide (s.lanes core = 0) || decide (u.part ≠ g.part)
      || decide (off % bytes ≠ 0) || decide (Assoc.find? u.owner (off / 4096) ≠ some g.launch) then none
  else some (core, off)

/-- The start of a `vldp` or `vstp`: its accessed elements are still to be performed (R334). -/
def startPeer (s : State) (tag : Nat) (g : Grp) (f : FM) (load : Bool) (fl : Flight) : State :=
  let w := FM.esize g f
  let accs := (g.accessed f.mreg.toNat).map (fun e =>
    (⟨e, w / 8, 0, .peer (ofInt 32 (g.index f.vi.toNat e))⟩ : Access))
  let f' := { fl with
    phase := .accesses, width := w, todo := accs
    vals := if load then [] else accs.map (fun a => (a.elem, g.elem f.vd.toNat w a.elem, 0))
    got := if load then g.loadZeros f else [] }
  s.setGrp tag (g.setFlight f')

/-- One element of a peer word: performed, or its fault bit set and its loaded value +0 (R299, R334, R335). -/
def peerElement (s : State) (g : Grp) (load : Bool) (f : Flight) (a : Access) : State × Flight :=
  let f := { f with todo := f.todo.filter (fun b => b ≠ a) }
  let word := match a.target with | .peer x => x | _ => 0
  match peerKey s g word a.size with
  | none => (s, { f with failed := f.failed ++ [(a.elem, 0, 0)], got := f.got ++ [(a.elem, 0)] })
  | some (core, off) =>
    if load then
      let x := g.valueRead f.entry.id 1 (spadKey core off) a.size (s.spadRead core off a.size)
      (s, { f with got := f.got ++ [(a.elem, x)] })
    else (s.spadWrite core off a.size (valueFor f.vals a.elem).1, f)

/-- The elements that are left, performed in order. -/
def peerAll (g : Grp) (load : Bool) : State → Flight → List Access → State × Flight
  | s, f, [] => (s, f)
  | s, f, a :: rest =>
    let r := peerElement s g load f a
    peerAll g load r.1 r.2 rest

/-- The return of a peer word: the elements left are performed, then the data and the whole of m[FMD] are written (R334). -/
def returnPeer (s : State) (tag : Nat) (g : Grp) (f : FM) (load : Bool) (fl : Flight) : State :=
  let (s, fl) := peerAll g load s fl fl.todo
  let g' := if load then g.putAll f.vd.toNat fl.width fl.got else g
  let g' := g'.setMask (f.sb.toNat % 8) (maskOfList (fl.failed.map Prod.fst))
  s.setGrp tag (g'.complete fl.entry)

/-- `vprefetch` asks for lines and has no other effect (R340); the type and span checks apply. -/
def Grp.prefetchTrap (g : Grp) (f : FM) : Option TrapInfo := g.widthTrap f [8, 16, 32, 64] false false

/-- A vector memory word enters the queue (R140, R324). -/
def issueMem (i : Instr) (f : FM) (path : Option Path) (s : State) : Result :=
  .next (issueVector i { reads := [f.sa, f.sb], cf := f.cf, path := path, memory := true } s)

/-- A remote word enters the queue (R140, R354, R356). -/
def issueRemote (i : Instr) (f : FM) (s : State) : Result :=
  .next (issueVector i { reads := [f.sa, f.sb, f.sa + 1], cf := f.cf, path := some .fb, memory := true } s)

/-- `vld` (R328). -/
def execVld (f : FM) (s : State) : Result := issueMem (.vld f) f (some .ld) s
/-- `vst` (R328). -/
def execVst (f : FM) (s : State) : Result := issueMem (.vst f) f (some .st) s
/-- `vlds` (R333). -/
def execVlds (f : FM) (s : State) : Result := issueMem (.vlds f) f (some .sp) s
/-- `vsts` (R333). -/
def execVsts (f : FM) (s : State) : Result := issueMem (.vsts f) f (some .sp) s
/-- `vldp` (R334). -/
def execVldp (f : FM) (s : State) : Result := issueMem (.vldp f) { f with sb := 0 } (some .sp) s
/-- `vstp` (R334). -/
def execVstp (f : FM) (s : State) : Result := issueMem (.vstp f) { f with sb := 0 } (some .sp) s
/-- `vaadd` (R337). -/
def execVaadd (f : FM) (s : State) : Result := issueMem (.vaadd f) f (some .st) s
/-- `vafadd` (R337). -/
def execVafadd (f : FM) (s : State) : Result := issueMem (.vafadd f) f (some .st) s
/-- `vaand` (R337). -/
def execVaand (f : FM) (s : State) : Result := issueMem (.vaand f) f (some .st) s
/-- `vaor` (R337). -/
def execVaor (f : FM) (s : State) : Result := issueMem (.vaor f) f (some .st) s
/-- `vaxor` (R337). -/
def execVaxor (f : FM) (s : State) : Result := issueMem (.vaxor f) f (some .st) s
/-- `vamin` (R337). -/
def execVamin (f : FM) (s : State) : Result := issueMem (.vamin f) f (some .st) s
/-- `vamax` (R337). -/
def execVamax (f : FM) (s : State) : Result := issueMem (.vamax f) f (some .st) s
/-- `vaswap` (R337). -/
def execVaswap (f : FM) (s : State) : Result := issueMem (.vaswap f) f (some .st) s
/-- `vacas` (R339). -/
def execVacas (f : FM) (s : State) : Result := issueMem (.vacas f) f (some .st) s
/-- `vprefetch` (R340). -/
def execVprefetch (f : FM) (s : State) : Result := issueMem (.vprefetch f) f none s
/-- `vcflush` (R340). -/
def execVcflush (f : FM) (s : State) : Result := issueMem (.vcflush f) f (some .st) s
/-- `vcwb` (R340). -/
def execVcwb (f : FM) (s : State) : Result := issueMem (.vcwb f) f (some .st) s
/-- `rld` (R356). -/
def execRld (f : FM) (s : State) : Result := issueRemote (.rld f) f s
/-- `rst` (R356). -/
def execRst (f : FM) (s : State) : Result := issueRemote (.rst f) f s
/-- `raadd` (R356). -/
def execRaadd (f : FM) (s : State) : Result := issueRemote (.raadd f) f s
/-- `rafadd` (R356). -/
def execRafadd (f : FM) (s : State) : Result := issueRemote (.rafadd f) f s
/-- `raor` (R356). -/
def execRaor (f : FM) (s : State) : Result := issueRemote (.raor f) f s
/-- `ramin` (R356). -/
def execRamin (f : FM) (s : State) : Result := issueRemote (.ramin f) f s
/-- `ramax` (R356). -/
def execRamax (f : FM) (s : State) : Result := issueRemote (.ramax f) f s
/-- `raswap` (R356). -/
def execRaswap (f : FM) (s : State) : Result := issueRemote (.raswap f) f s
/-- `rcas` (R356). -/
def execRcas (f : FM) (s : State) : Result := issueRemote (.rcas f) f s

end Sys2Proof.Machine
end

