-- ==== Sys2Proof/Machine/Form.lean ====
section
/-!
DEFINITION. The collective forms (R225-R248): their words, the checks of R230, the element groups of R239, their progress
(R240-R242) and `fbar`.
-/
namespace Sys2Proof.Machine

/-- The six forms (R225). -/
inductive FormKind where
  | map | zip | reduce
  | scan (exclusive : Bool)
  | stencil | gapply
  deriving DecidableEq, Repr

/-- The form that a word is. -/
def formOf : Instr → Option (FormKind × FF)
  | .map f => some (.map, f)
  | .zip f => some (.zip, f)
  | .reduce f => some (.reduce, f)
  | .scan f => some (.scan false, f)
  | .scanX f => some (.scan true, f)
  | .stencil f => some (.stencil, f)
  | .gapply f => some (.gapply, f)
  | _ => none

/-- The registers of a stream specification (R227). -/
def specRegs (r : BitVec 6) : List (BitVec 6) := if r = 0 then [0, 0, 0] else [r, r + 1, r + 2]

/-- The scalar registers that a form word reads at issue: SA, SB, SC and SD (R227). -/
def formReads (f : FF) : List (BitVec 6) := specRegs f.sa ++ specRegs f.sb ++ specRegs f.sc ++ specRegs (sdField f)

/-- A stream specification (R227). -/
structure Spec where
  base : W64
  ctl : Nat
  aux : W64
  deriving DecidableEq, Repr

/-- Specification `k` of a form's operands: 0 SA, 1 SB, 2 SC, 3 SD. -/
def specOf (ops : List W64) (k : Nat) : Spec := ⟨ops.getD (3 * k) 0, (ops.getD (3 * k + 1) 0).toNat, ops.getD (3 * k + 2) 0⟩

def Spec.kind (p : Spec) : Nat := bitsOf p.ctl 62 2
def Spec.indexed (p : Spec) : Bool := bitOf p.ctl 61
def Spec.ew (p : Spec) : Nat := bitsOf p.ctl 59 2
def Spec.count (p : Spec) : Nat := bitsOf p.ctl 0 32

/-- The element size of a stream (R228). -/
def Spec.esize (p : Spec) (pair : Bool) : Nat :=
  match p.ew with
  | 0 => if pair then 8 else 4
  | 3 => 1
  | _ => 2

/-- An input element after its extension (R228). -/
def Spec.extend (p : Spec) (x : Nat) : Nat :=
  match p.ew with
  | 2 => ofInt 32 (toSigned 16 x)
  | 3 => ofInt 32 (toSigned 8 x)
  | _ => x

/-- The streams of a form word: which fields name one. -/
def streamFields (f : FF) : List Nat :=
  (if f.sa = 0 then [] else [0]) ++ (if f.sb = 0 then [] else [1]) ++ (if f.sc = 0 then [] else [2])

/-- Effective attributes (R89). -/
def effective (b : Block) (f : FF) : Nat := Nat.land b.attrs f.attr.toNat

/-- A specification breaks R231 by itself. -/
def Spec.bad (p : Spec) (g : Grp) (pair : Bool) : Bool :=
  decide (bitsOf p.ctl 32 27 ≠ 0)
    || (decide (p.kind = 2) && decide (p.base.toNat ≥ 16)) || (decide (p.kind = 3) && decide (p.base.toNat ≥ 32))
    || (decide (p.kind ≥ 2) && (p.indexed || decide (p.aux ≠ 0)))
    || (pair && decide (p.ew ≠ 0))
    || (decide (p.kind = 3) && decide (p.base.toNat + ceilDiv (p.count * p.esize pair) (4 * g.regWords) > g.nreg))

/-- N of a form (R229). -/
def elementCount (k : FormKind) (ops : List W64) : Nat :=
  match k with
  | .reduce | .scan _ => (specOf ops 0).count
  | _ => (specOf ops 3).count

/-- A block does not fit its form (R230): `streams` input streams, `outer` the outer form of a pair. -/
def blockMisfit (k : FormKind) (f : FF) (b : Block) (outer : Bool) : Bool :=
  let streams := (streamFields f).length
  match k with
  | .map => !(b.nin = 1 || (outer && b.nin = 2)) || decide (b.nout ≠ 1)
  | .zip => decide (b.nin ≠ streams) || decide (b.nin < 2) || decide (b.nout ≠ 1)
  | .reduce | .scan false => decide (b.nin ≠ 2 ∨ b.nout ≠ 1)
  | .scan true => decide (b.nin ≠ 2 ∨ b.nout ≠ 1) || (!bitOf (FF.sub f) 0 && !bitOf (effective b f) 2)
  | .stencil => decide (b.nin < 2 ∨ b.nin > 4 ∨ b.nout ≠ 1) || decide (FF.sub f % 4 ≥ b.nin)
  | .gapply => decide (b.nin ≠ streams ∨ b.nin = 0 ∨ b.nin > 3) || decide (b.nout ≠ 1) || b.pair

/-- The specifications of a form break R231. -/
def specsBad (g : Grp) (k : FormKind) (f : FF) (b : Block) (ops : List W64) (inner : Bool) : Bool :=
  let n := elementCount k ops
  let ins := (streamFields f).map (specOf ops)
  let dest := specOf ops 3
  let hasDest := sdField f ≠ 0
  ins.any (fun p => p.bad g b.pair) || (hasDest && dest.bad g b.pair) || (hasDest && decide (dest.kind = 2))
    || ((k ≠ .stencil && !inner) && ins.any (fun p => p.count < n))
    || (match k with
        | .scan _ => decide (dest.count < n)
        | .gapply => !(dest.indexed && decide (dest.kind < 2) && decide (dest.ew = 0))
        | _ => false)

/-- The input streams that consume a feed copy. -/
def feedStreams (f : FF) (ops : List W64) : List Spec := ((streamFields f).map (specOf ops)).filter (fun p => p.kind = 2)

/-- The progress registers (R240). -/
structure Prog where
  v : Bool
  e : Nat
  ie : Nat
  rrow : Nat
  part : Option Nat
  /-- FEEDBASE and CPMARK -/
  feed : Option (W64 × Nat)
  deriving DecidableEq, Repr

/-- The progress that FPROG holds; none when V = 0. -/
def Grp.progress (g : Grp) : Prog :=
  let r (k : Nat) : Nat := (FMap.get 0 g.fprog k).toNat
  if bitOf (r 0) 63 then
    { v := true, e := bitsOf (r 0) 0 32, ie := bitsOf (r 1) 0 32, rrow := bitsOf (r 1) 32 32
      part := if bitOf (r 0) 61 then some (r 2) else none
      feed := if bitOf (r 0) 60 then some (BitVec.ofNat 64 (r 3), bitsOf (r 4) 0 16) else none }
  else { v := false, e := 0, ie := 0, rrow := 0, part := none, feed := none }

/-- FPROG with a form's progress in it (R240). -/
def Grp.setProgress (g : Grp) (pair : Bool) (p : Prog) : Grp :=
  let r0 := 2 ^ 63 + bit pair * 2 ^ 62 + bit p.part.isSome * 2 ^ 61 + bit p.feed.isSome * 2 ^ 60 + p.e % 2 ^ 32
  let put (m : FMap W64) (k v : Nat) : FMap W64 := FMap.set 0 m k (BitVec.ofNat 64 v)
  let m := put (put (put [] 0 r0) 1 (p.ie % 2 ^ 32 + p.rrow % 2 ^ 32 * 2 ^ 32)) 2 (p.part.getD 0)
  { g with fprog := match p.feed with
      | some (b, c) => put (put m 3 b.toNat) 4 (c % 2 ^ 16)
      | none => m }

/-- How the reading of a block ends. -/
inductive BlockRead where
  | ok (s : State) (b : Block)
  | trap (s : State) (info : TrapInfo)
  | wait (s : State)

/-- The two words of a dword. -/
def halves (d : W64) : List Nat := [loOf d.toNat, hiOf d.toNat]

/-- A dword of a launch's block table as a core reads it (R63): where software has written it while the launch runs, as it was before
or as it is, as the device chooses. One that a lender could not read has a value that the manual does not state (log entry 16). -/
def tableDword (s : State) (w : Agent) (core : Nat) (va : W64) : Reached :=
  reach s w va .read (fun s t =>
    match resolve s t with
    | .at pa => let r := s.oldOrNew (s.coreAt core).blockPast w.launch pa; .ok r.2 r.1.toNat
    | _ =>
      match readAt s w va 8 t with
      | .failed s => .ok s (Config.unstated 2 [va.toNat])
      | r => r)

/-- The words and identity of a block whose header has passed (R82, R91). -/
def readWords (s : State) (w : Agent) (core : Nat) (at_ : W64) (lbid h : Nat) : BlockRead :=
  let len := bitsOf h 0 6
  match readEach (fun s va => tableDword s w core va) s (at_ + 8) (ceilDiv len 2) with
  | .failed s => .wait s
  | .trap s i => .trap s i
  | .wait s => .wait s
  | .ok s ds =>
    let ws := (((ds.map halves).flatten).take len).map laneWord
    let finish (s : State) (ident : Nat) : BlockRead :=
      let b := blockOf h ident ws
      match b.wordsReason 0 [] ws with
      | some (r, i) => .trap s (badLambda r i lbid)
      | none => .ok s b
    if bitOf h 18 then
      match readEach (fun s va => tableDword s w core va) s (at_ + 136) 1 with
      | .failed s => .wait s
      | .ok s ds => finish s (let x := (ds.headD 0).toNat; if bitOf h 20 then x else loOf x)
      | .trap s i => .trap s i
      | .wait s => .wait s
    else finish s 0

/-- The block that a form names: the copy its core keeps for the launch, else the entry read and validated (R63, R91). -/
def fetchBlock (s : State) (tag : Nat) (g : Grp) (e : VEntry) (lbid : Nat) : BlockRead :=
  let u := s.coreAt g.core
  match u.blocks.find? (fun k => k.launch = g.launch ∧ k.lbid = lbid) with
  | some k => .ok s k.block
  | none =>
    let (base, count) := match s.launchAt g.launch with
      | some l => (l.record.btbase, l.record.btcount)
      | none => ((0 : W64), 0)
    let w := g.agent tag unitBlock e.id e.pc e.hdr
    let at_ := base + BitVec.ofNat 64 (256 * lbid)
    if lbid ≥ count then .trap s (badLambda 1 0xFF lbid)
    else
      match readEach (fun s va => tableDword s w g.core va) s at_ 1 with
      | .failed s => .wait s
      | .trap s i => .trap s i
      | .wait s => .wait s
      | .ok s ds =>
        let h := (ds.headD 0).toNat
        match headerReason h with
        | some r => .trap s (badLambda r 0xFF lbid)
        | none =>
          match readWords s w g.core at_ lbid h with
          | .ok s b =>
            let u := s.coreAt g.core
            .ok (s.setCore g.core { u with blocks := u.blocks ++ [⟨g.launch, lbid, b⟩] }) b
          | r => r

/-- The form at the head of a group's queue, with the head. -/
def Grp.headForm (g : Grp) : Option (VEntry × FormKind × FF) := do
  let e ← g.vq.head?
  let (k, f) ← formOf e.instr
  some (e, k, f)

/-- The inner form of a pair's entry, with its operands. -/
def innerForm (e : VEntry) : Option (FormKind × FF × List W64) := do
  let (i, ops) ← e.inner
  let (k, f) ← formOf i
  some (k, f, ops)

/-- The posted copies of a task, on whatever core. -/
def copiesOf (s : State) (g : Grp) : List CopyJob :=
  ((s.cores.map (fun p => p.2.copies)).flatten).filter (fun j => j.launch = g.launch && j.ordinal = g.ordinal)

/-- The candidate of R232: the oldest feed copy on a queue that the group posted before the form and that is unclaimed. -/
def feedCandidate (s : State) (g : Grp) (e : VEntry) (queue : Nat) : Option CopyJob :=
  ((copiesOf s g).filter (fun j => j.feed && j.claimed.isNone && decide (j.queue = queue) && decide (j.id < e.id))).foldl
    (fun (m : Option CopyJob) j => match m with
      | some x => if j.id < x.id then some j else some x
      | none => some j) none

/-- How check 4 of R230 ends. -/
inductive FeedCheck where
  | ok (feed : Option Feed)
  | trap
  | wait

/-- Check 4 of R230 (R232, R240): the feed copy of a kind-2 stream, of `bytes` bytes. -/
def checkFeed (s : State) (g : Grp) (e : VEntry) (stream : Option Spec) (bytes : Nat) : FeedCheck :=
  match stream with
  | none => .ok none
  | some p =>
    let pr := g.progress
    if pr.v then
      match pr.feed with
      | some (b, c) => .ok (some { id := 0, queue := p.base.toNat, base := b, cpmark := c, resumed := true })
      | none => .trap
    else
      match feedCandidate s g e p.base.toNat with
      | none => .trap
      | some j =>
        let mark := (e.cps - j.cps - 1) % 2 ^ 16
        match j.failed with
        | some 0x16 =>
          let base := match j.read with
            | some d => d.dst
            | none => BitVec.ofNat 64 (Config.unstated 3 [j.desc.toNat])
          .ok (some { id := j.id, queue := j.queue, base := base, cpmark := mark, failed := some (0x16, 0, []) })
        | _ =>
          match j.read with
          | none => .wait
          | some d =>
            if d.len0 < bytes then .trap
            else .ok (some { id := j.id, queue := j.queue, base := d.dst, cpmark := mark
                             failed := j.failed.map (fun c => (c, j.written, j.early)) })

/-- The checks 2 to 4 of R230 on a form whose blocks are at hand. -/
def checkForm (s : State) (g : Grp) (e : VEntry) (k : FormKind) (f : FF) (b : Block)
    (inner : Option (FormKind × FF × List W64 × Block)) : Except (Option TrapInfo) FormRun :=
  let n := elementCount k e.ops
  let misfit := blockMisfit k f b inner.isSome
  let innerMisfit := match inner with | some (ik, iff, _, ib) => blockMisfit ik iff ib false | none => false
  if misfit then .error (some (badLambda 0x0B 0xFF f.lbid.toNat))
  else if innerMisfit then
    .error (some (badLambda 0x0B 0xFF (match inner with | some (_, iff, _, _) => iff.lbid.toNat | none => 0)))
  else
    let feeds := feedStreams f e.ops ++ (match inner with | some (_, iff, ops, _) => feedStreams iff ops | none => [])
    let bad := specsBad g k f b e.ops false
      || (match inner with | some (ik, iff, ops, ib) => specsBad g ik iff ib ops true | none => false)
      || decide (feeds.length > 1)
    if bad then .error (some (illegal 0x0A))
    else
      let bytes := match feedStreams f e.ops, inner with
        | p :: _, _ => n * p.esize b.pair
        | [], some (_, iff, ops, ib) => (match feedStreams iff ops with | p :: _ => p.count * p.esize ib.pair | [] => 0)
        | [], none => 0
      match checkFeed s g e feeds.head? bytes with
      | .trap => .error (some (illegal 0x0B))
      | .wait => .error none
      | .ok feed => .ok { outer := b, inner := inner.map (fun p => p.2.2.2), n := n, feed := feed }

/-- The head of the queue with a trap found. -/
def Grp.trapHead (g : Grp) (i : TrapInfo) : Grp :=
  match g.vq with
  | e :: rest => { g with vq := { e with trap := some i } :: rest }
  | [] => g

/-- The head of the queue may be checked: no trap has been found, and every older instruction has gone to its unit. -/
def Grp.headOpen (g : Grp) (e : VEntry) : Bool := e.trap.isNone && !g.flights.any (fun f => f.phase = .ready)

/-- The checks of a form that leaves the queue (R230), before its first element group. -/
def tryFormCheck (s : State) (tag : Nat) : Option State := do
  let g ← s.grp tag
  let (e, k, f) ← g.headForm
  if g.form.isSome || !g.headOpen e || g.acquireOlder e.id then none
  else
    let settle (s : State) (r : Except (Option TrapInfo) FormRun) : Option State :=
      match r with
      | .ok run =>
        let g' := { g with form := some run, formId := if g.progress.v then g.formId else e.id }
        some ((s.setGrp tag g').forget (g.agent tag unitBlock e.id e.pc e.hdr))
      | .error (some i) => some (s.setGrp tag (g.trapHead i))
      | .error none => none
    match fetchBlock s tag g e f.lbid.toNat with
    | .trap s i => some (s.setGrp tag (g.trapHead i))
    | .wait s' => ifMoved s s'
    | .ok s b =>
      match innerForm e with
      | none => settle s (checkForm s g e k f b none)
      | some (ik, iff, ops) =>
        match fetchBlock s tag g e iff.lbid.toNat with
        | .trap s i => some (s.setGrp tag (g.trapHead i))
        | .wait s' => ifMoved s s'
        | .ok s ib => settle s (checkForm s g e k f b (some (ik, iff, ops, ib)))

/-- FORM_CHECK (R230). -/
def execFormCheck (gtag : Nat) (s : State) : Result := eventResult s (tryFormCheck s gtag)

/-- What the probe of an element group has gathered: the pages translated, and the ranges that earlier elements of the
group write in scratchpad (space 1) and registers (space 2). -/
structure Planner where
  s : State
  seen : Seen := []
  wrote : List (Nat × Int × Nat) := []
  steps : List FormStep := []
  /-- reads of index arrays and row lengths (R322) -/
  extra : List Access := []

/-- How the placing of one element ends. -/
inductive Located where
  | ok (p : Planner) (loc : Loc)
  /-- it reads what an earlier element of the group writes: the group ends before it (R243) -/
  | conflict
  | trap (s : State) (info : TrapInfo)
  | wait (s : State)

/-- A range overlaps one that the group writes. -/
def Planner.written (p : Planner) (space : Nat) (a : Int) (n : Nat) : Bool :=
  p.wrote.any (fun w => w.1 = space && decide (w.2.1 < a + n) && decide (a < w.2.1 + w.2.2))

/-- What a form's run of placing needs to know. -/
structure FormView where
  tag : Nat
  g : Grp
  e : VEntry
  feed : Option Feed
  na : Bool

/-- The agent of a form's stream accesses. -/
def FormView.agent (v : FormView) : Agent := v.g.agent v.tag unitStream v.e.id v.e.pc v.e.hdr

/-- A global element placed and translated: each page once (R306, R228). -/
def placeGlobal (v : FormView) (p : Planner) (a : W64) (n elem : Nat) (kind : AccessKind) : Located :=
  if a.toNat % n ≠ 0 then .trap p.s (alignTrap a)
  else
    match translateOnce p.s v.g.part a kind p.seen with
    | (.ok _ t, s, seen) => .ok { p with s := s, seen := seen } (.mem ⟨elem, n, a, t⟩)
    | (.fault d, s, _) => .trap s (pageTrap d kind a)
    | (.revoked l, s, _) => .trap s (leaseTrap l a)
    | (.wait, s, _) => .wait s

/-- The bytes of an element placed one by one. -/
def placeBytes (v : FormView) (elem : Nat) : Planner → W64 → List Access → Nat → Located
  | p, _, got, 0 => .ok p (.bytes got.reverse)
  | p, a, got, n + 1 =>
    match placeGlobal v p a 1 elem .read with
    | .ok p (.mem x) => placeBytes v elem p (a + 1) (x :: got) n
    | r => r

/-- An element of a feed copy placed: its address need not be a multiple of its size (R228). -/
def placeFeed (v : FormView) (p : Planner) (a : W64) (n elem : Nat) : Located :=
  if a.toNat % n = 0 then placeGlobal v p a n elem .read else placeBytes v elem p a [] n

/-- A scratchpad element placed (R228, R243). -/
def placeScratch (v : FormView) (p : Planner) (off : Int) (n elem : Nat) (read : Bool) : Located :=
  if read && p.written 1 off n then .conflict
  else if off % (n : Int) ≠ 0 then .trap p.s (alignTrap (BitVec.ofInt 64 off))
  else if v.g.inSpad off n then
    .ok p (.mem ⟨elem, n, BitVec.ofInt 64 off, .spad (spadKey v.g.core off.toNat)⟩)
  else .trap p.s (spboundTrap (BitVec.ofInt 64 off))

/-- A place in global memory or scratchpad, by the stream's kind. -/
def placeIn (v : FormView) (p : Planner) (kind : Nat) (a : Int) (n elem : Nat) (acc : AccessKind) : Located :=
  if kind = 1 then placeGlobal v p (BitVec.ofInt 64 a) n elem acc
  else placeScratch v p a n elem (acc = .read)

/-- What the group's forms have written over, as the state holds it. -/
def State.formPast (s : State) (tag : Nat) : List Overwritten := ((s.grp tag).map Grp.formPast).getD []

/-- The writes over some bytes that the form at hand may still not see (R244, R245): those of older forms, but not where an element
group of its own has written since, and under `noalias` in global memory those of its own earlier groups too. Newest first. -/
def unseen (v : FormView) (past : List Overwritten) (space place n : Nat) : List Overwritten :=
  let at_ := past.filter (fun h => h.meets space place n)
  if v.na && decide (space = 0) then at_
  else
    let own := at_.filter (fun h => h.form = v.g.formId)
    own.foldl (fun l o => l.flatMap (fun h => h.without space o.place o.size)) (at_.filter (fun h => h.form ≠ v.g.formId))

/-- The history of some bytes once a read of them has gone without the writes `newer`: no later read returns what is older (R380). -/
def forgetOlder (past newer : List Overwritten) (space place n : Nat) : List Overwritten :=
  past.flatMap (fun h => if h.meets space place n && !newer.contains h then h.without space place n else [h])

/-- A read that goes back, write by write, to what was there before: its value so far, the offsets of its bytes that have come to no
write yet which they see, and the history that is left. -/
structure StaleRead where
  s : State
  value : Nat
  going : List Nat
  past : List Overwritten

/-- Some bytes see the write at hand, but not the `newer` ones. -/
def StaleRead.see (r : StaleRead) (newer : List Overwritten) (space place : Nat) (os : List Nat) : StaleRead :=
  { r with
    going := r.going.filter (fun o => !os.contains o)
    past := os.foldl (fun p o => forgetOlder p newer space (place + o) 1) r.past }

/-- Some bytes are as they were before a write. -/
def StaleRead.pass (r : StaleRead) (h : Overwritten) (place : Nat) (os : List Nat) : StaleRead :=
  { r with value := os.foldl (fun x o => setBitsOf x (8 * o) 8 (h.old / 256 ^ (place + o - h.place) % 256)) r.value }

/-- Some bytes see a write or not, together, as the device chooses. -/
def StaleRead.either (r : StaleRead) (newer : List Overwritten) (h : Overwritten) (space place : Nat) (os : List Nat) : StaleRead :=
  let (k, s) := r.s.choose 2
  if k = 0 then { r with s := s }.see newer space place os else { r with s := s }.pass h place os

/-- A read of `n` bytes comes to a write: one of the same place and width it sees whole or not at all, and of another its bytes see each
what the device chooses (R379). -/
def StaleRead.meet (r : StaleRead) (newer : List Overwritten) (h : Overwritten) (space place n : Nat) : StaleRead :=
  let mine := r.going.filter (fun o => decide (h.place ≤ place + o) && decide (place + o < h.place + h.size))
  if h.place = place ∧ h.size = n then
    if mine.length < n then r.see newer space place mine else r.either newer h space place mine
  else mine.foldl (fun r o => r.either newer h space place [o]) r

/-- A read comes to one write after another, the newest first. -/
def StaleRead.through (space place n : Nat) : List Overwritten → StaleRead → List Overwritten → StaleRead
  | _, r, [] => r
  | newer, r, h :: older => StaleRead.through space place n (newer ++ [h]) (r.meet newer h space place n) older

/-- A value of `n` bytes read by a form, as it is or as it was before writes that the form need not see, as the device chooses (R244,
R245). -/
def withStale (v : FormView) (space place : Nat) (s : State) (x n : Nat) : Nat × State :=
  let past := s.formPast v.tag
  let hs := unseen v past space place n
  if hs = [] then (x, s)
  else
    let r := StaleRead.through space place n [] { s := s, value := x, going := upTo n, past := past } hs
    (r.value, r.s.modGrp v.tag (fun g => { g with formPast := r.past }))

/-- The space and place of an access, for the notes of R245 and R380. -/
def spaceOf (s : State) (a : Access) : Option (Nat × Nat) :=
  match resolve s a.target with
  | .at pa => some (0, pa)
  | .spad k => some (1, k)
  | .leased l off => some (leaseSpace l, off)
  | .locked => none

/-- What word `id` of the group reads of an access that brings `x` (R380). -/
def Grp.accessRead (g : Grp) (s : State) (id : Nat) (a : Access) (x : Nat) : Nat :=
  match spaceOf s a with
  | some (sp, pl) => g.bytesRead id sp pl a.size x
  | none => x

/-- The value of a memory element of a stream, once older accesses of the group to it are performed (R148, R245). -/
def readMem (v : FormView) (s : State) (a : Access) : Reached :=
  if v.g.olderAccess v.e.id a
      || ((match a.target with | .spad _ => true | _ => false) && (v.g.scratchStores v.e.id || v.g.peerFlights v.e.id)) then
    .wait s
  else
    match readAt s v.agent a.va a.size a.target with
    | .ok s x =>
      (match spaceOf s a with
       | some (sp, pl) =>
         let r := withStale v sp pl s (v.g.bytesRead v.e.id sp pl a.size x) a.size
         .ok r.2 r.1
       | none => .ok s x)
    | .failed s => .ok s (Config.unstated 5 [a.va.toNat, a.size])
    | r => r

/-- The value of bytes that lie apart (R228). -/
def readBytes (v : FormView) : State → List Access → Reached
  | s, [] => .ok s 0
  | s, a :: rest =>
    match readMem v s a with
    | .ok s x =>
      (match readBytes v s rest with
       | .ok s y => .ok s (x % 256 + 256 * y)
       | r => r)
    | r => r

/-- The place of element `i` of a stream (R228, R231); a feed stream's bytes must have been written (R232, R241, R242). -/
def locate (v : FormView) (p : Planner) (sp : Spec) (pair : Bool) (i elem : Nat) (acc : AccessKind) : Located :=
  let n := sp.esize pair
  match sp.kind with
  | 3 =>
    let b := sp.base.toNat * 4 * v.g.regWords + i * n
    if acc = .read && p.written 2 b n then .conflict else .ok p (.reg b n)
  | 2 =>
    match v.feed with
    | none => .wait p.s
    | some fd =>
      let off := i * n
      let a := fd.base + BitVec.ofNat 64 off
      if fd.resumed then
        (if v.g.counter .cp ≤ fd.cpmark then placeFeed v p a n elem else .wait p.s)
      else
        match fd.failed with
        | some (c, written, early) =>
          if (upFrom off n).all (fun b => b < written || early.contains b) then placeFeed v p a n elem
          else .trap p.s { cause := 0x0C, detail := c, addr := a }
        | none =>
          match (copiesOf p.s v.g).find? (fun j => j.id = fd.id) with
          | some j =>
            if j.done || (upFrom off n).all (fun b => b < j.written || j.early.contains b) then placeFeed v p a n elem
            else
              (match j.failed with
               | some c => .trap p.s { cause := 0x0C, detail := c, addr := a }
               | none => .wait p.s)
          | none => placeFeed v p a n elem
  | k =>
    if !sp.indexed then placeIn v p k (sp.base.toNat + i * sp.aux.toInt) n elem acc
    else
      match placeIn v p k (sp.aux.toNat + 4 * i : Nat) 4 elem .read with
      | .ok p (.mem a) =>
        (match readMem v p.s a with
         | .ok s x => placeIn v { p with s := s, extra := a :: p.extra } k (sp.base.toNat + x * n : Nat) n elem acc
         | .failed s => .wait s
         | .trap s i => .trap s i
         | .wait s => .wait s)
      | r => r

/-- The group's writes with one more destination. -/
def Planner.note (p : Planner) : Loc → Planner
  | .mem a => (match a.target with
      | .spad _ => { p with wrote := (1, (a.va.toInt : Int), a.size) :: p.wrote }
      | _ => p)
  | .reg b n => { p with wrote := (2, (b : Int), n) :: p.wrote }
  | .bytes _ | .zero => p

/-- Places found one after another, or the first that is not. -/
def locateAll (p : Planner) : List (Planner → Located) → List Loc → Except Located (Planner × List Loc)
  | [], got => .ok (p, got.reverse)
  | q :: rest, got =>
    match q p with
    | .ok p l => locateAll p rest (l :: got)
    | r => .error r

/-- The reads of element `i` of a form without a pair (R233-R236). -/
def elementReads (v : FormView) (k : FormKind) (f : FF) (b : Block) (i : Nat) : List (Planner → Located) :=
  let ops := v.e.ops
  match k with
  | .stencil =>
    let m := (specOf ops 0).count
    let org := FF.sub f % 4
    (upTo b.nin).map (fun (t : Nat) p =>
      let q : Int := (i : Int) - org + t
      if 0 ≤ q ∧ q < m then locate v p (specOf ops 0) b.pair q.toNat i .read
      else if bitOf (FF.sub f) 2 ∧ m > 0 then
        locate v p (specOf ops 0) b.pair (if q < 0 then 0 else m - 1) i .read
      else .ok p .zero)
  | _ => (streamFields f).map (fun n p => locate v p (specOf ops n) b.pair i i .read)

/-- How the planning of an element group ends. -/
inductive Planned where
  | ok (s : State) (steps : List FormStep) (extra : List Access)
  | trap (s : State) (info : TrapInfo)
  | wait (s : State)

/-- The plan as far as it has come. -/
def Planner.finish (p : Planner) : Planned := .ok p.s p.steps.reverse p.extra

/-- The right that a form's destination asks for. -/
def destKind (k : FormKind) : AccessKind := if k = .gapply then .atomic else .write

/-- The steps of an element group of a form without a pair, from element `i` on, at most `left` of them (R239, R243). -/
def planElements (v : FormView) (k : FormKind) (f : FF) (b : Block) (n : Nat) : Planner → Nat → Nat → Planned
  | p, _, 0 => p.finish
  | p, i, left + 1 =>
    if i ≥ n then p.finish
    else
      let dest := if sdField f = 0 then [] else [fun p => locate v p (specOf v.e.ops 3) b.pair i i (destKind k)]
      match locateAll p (elementReads v k f b i) [] with
      | .error .conflict => p.finish
      | .error (.trap s t) => .trap s t
      | .error (.wait s) => .wait s
      | .error (.ok p _) => p.finish
      | .ok (p', reads) =>
        match locateAll p' dest [] with
        | .error .conflict => p.finish
        | .error (.trap s t) => .trap s t
        | .error (.wait s) => .wait s
        | .error (.ok p _) => p.finish
        | .ok (p', ds) =>
          let p' := ds.foldl Planner.note p'
          planElements v k f b n { p' with steps := .elem i reads ds.head? :: p'.steps } (i + 1) left

/-- The row under way while a pair is planned: none at a row boundary; else its length, and its elements left. -/
abbrev OpenRow := Option (Nat × Nat × Bool)

/-- The length of row `j` of a pair, read with its group's probe (R238). DESIGN CHOICE (log entry 35): R238 calls it an n32, and where the
outer block has PAIR = 1 the element of R228 is 8 bytes wide: the length is then its low word. -/
def rowLength (v : FormView) (b : Block) (p : Planner) (j : Nat) : Except Located (Planner × Nat) :=
  let sp := specOf v.e.ops 0
  match locate v p sp b.pair j j .read with
  | .ok p (.mem a) =>
    (match readMem v p.s a with
     | .ok s x => .ok ({ p with s := s, extra := a :: p.extra }, loOf (sp.extend x))
     | .failed s => .error (.wait s)
     | .trap s i => .error (.trap s i)
     | .wait s => .error (.wait s))
  | .ok p (.bytes as) =>
    (match readBytes v p.s as with
     | .ok s x => .ok ({ p with s := s, extra := as ++ p.extra }, loOf (sp.extend x))
     | .failed s => .error (.wait s)
     | .trap s i => .error (.trap s i)
     | .wait s => .error (.wait s))
  | .ok p (.reg byte n) =>
    let r := withStale v 2 byte p.s (v.g.elem 0 (8 * n) (byte / n)) n
    .ok ({ p with s := r.2 }, loOf (sp.extend r.1))
  | .ok p .zero => .ok (p, 0)
  | r => .error r

/-- The steps of an element group of a pair (R238, R239): row `j`, inner element `i`, `left` inner elements to go. -/
def planPair (v : FormView) (outer inner : Block) (ik : FormKind) (iff : FF) (iops : List W64) (n : Nat) :
    Nat → Planner → Nat → Nat → Nat → OpenRow → Planned
  | 0, p, _, _, _, _ => p.finish
  | fuel + 1, p, j, i, left, none =>
    if j ≥ n ∨ left = 0 then p.finish
    else
      (match rowLength v outer p j with
       | .ok (p, len) =>
         let take := min len ((specOf iops 0).count - i)
         planPair v outer inner ik iff iops n fuel { p with steps := .openRow j len take :: p.steps } j i left
           (some (len, take, decide (take = 0)))
       | .error .conflict => p.finish
       | .error (.trap s t) => .trap s t
       | .error (.wait s) => .wait s
       | .error (.ok p _) => p.finish)
  | fuel + 1, p, j, i, left, some (len, 0, empty) =>
    let skip := empty && !bitOf (effective inner iff) 2
    (match locateAll p (if skip then [] else [fun p => locate v p (specOf v.e.ops 3) outer.pair j j .write]) [] with
     | .ok (p, ds) =>
       let p := ds.foldl Planner.note p
       planPair v outer inner ik iff iops n fuel { p with steps := .closeRow j len ds.head? :: p.steps } (j + 1) i left none
     | .error .conflict => p.finish
     | .error (.trap s t) => .trap s t
     | .error (.wait s) => .wait s
     | .error (.ok p _) => p.finish)
  | fuel + 1, p, j, i, left, some (len, rest + 1, _) =>
    if left = 0 then p.finish
    else
      let dest := if sdField iff = 0 then [] else [fun p => locate v p (specOf iops 3) inner.pair i i .write]
      (match locateAll p [fun p => locate v p (specOf iops 0) inner.pair i i .read] [] with
       | .ok (p', reads) =>
         (match locateAll p' dest [] with
          | .ok (p', ds) =>
            let p' := ds.foldl Planner.note p'
            planPair v outer inner ik iff iops n fuel { p' with steps := .elem i reads ds.head? :: p'.steps } j (i + 1)
              (left - 1) (some (len, rest, false))
          | .error (.trap s t) => .trap s t
          | .error (.wait s) => .wait s
          | .error _ => p.finish)
       | .error (.trap s t) => .trap s t
       | .error (.wait s) => .wait s
       | .error _ => p.finish)

/-- The plan of the element group at the form's progress index (R239). A row of a pair whose elements have all been combined and whose
end had to wait for a write of its group (R243) has RROW = 0 and a value in PART: it only ends. -/
def planGroup (v : FormView) (s : State) (run : FormRun) (k : FormKind) (f : FF) : Planned :=
  let pr := v.g.progress
  let p : Planner := { s := s }
  match run.inner, innerForm v.e with
  | some ib, some (ik, iff, iops) =>
    let fuel := 2 * (run.n - pr.e) + 70
    if pr.rrow = 0 ∧ pr.part = none then planPair v run.outer ib ik iff iops run.n fuel p pr.e pr.ie 32 none
    else
      let len := if run.outer.nin = 2 then rowLength v run.outer p pr.e else .ok (p, 0)
      (match len with
       | .ok (p, len) =>
         planPair v run.outer ib ik iff iops run.n fuel { p with steps := [.openRow pr.e len pr.rrow] } pr.e pr.ie 32
           (some (len, pr.rrow, false))
       | .error (.trap s t) => .trap s t
       | .error (.wait s) => .wait s
       | .error _ => .wait s)
  | _, _ => planElements v k f run.outer run.n p pr.e 32

/-- The memory operation of a form's writes. -/
def formOp (k : FormKind) (f : FF) : MemOp :=
  if k = .gapply then
    match FF.sub f with
    | 0 => .atomic 0 false false
    | 1 => .atomic 1 false false
    | 2 => .atomic 5 false false
    | 3 => .atomic 6 false false
    | 4 => .atomic 5 true false
    | 5 => .atomic 6 true false
    | 6 => .atomic 3 false false
    | _ => .atomic 2 false false
  else .store

/-- The writes of an element group that are left, where they can be performed now (R239, R244): one that is `held` waits for an older
word of the group (R148, R267). -/
def formWrites (op : MemOp) (vals : List (Nat × Nat × Nat)) (held : Access → Bool) : State → List Access → State × List Access
  | s, [] => (s, [])
  | s, a :: rest =>
    let v := valueFor vals a.elem
    let go (r : State × Nat) : State × List Access := formWrites op vals held r.1 rest
    let keep (_ : Unit) : State × List Access := let r := formWrites op vals held s rest; (r.1, a :: r.2)
    if held a then keep ()
    else
      match resolve s a.target with
      | .at pa => go (performAt s op (8 * a.size) pa v)
      | .spad key => go (performSpad s op (8 * a.size) key v)
      | _ => keep ()

/-- The request to a lender for one write of a form. -/
def formPacket (s : State) (tag : Nat) (op : MemOp) (a : Access) (l off v : Nat) : Packet :=
  match op with
  | .atomic fn u _ => { leasedPacket s 3 fn (8 * a.size) l off tag false [v] [] with u := u }
  | _ => leasedPacket s 2 0 (8 * a.size) l off tag false [v] []

/-- The writes of a form move on (R239): those at hand are performed, one that lies at a lender is asked for. The flight is
left with what remains. None where nothing can be done. -/
def advanceForm (s : State) (tag : Nat) (g : Grp) (k : FormKind) (f : FF) (fl : Flight) : Option (State × Flight) :=
  if fl.todo = [] then none
  else
    let op := formOp k f
    let held := g.flightOverlap fl.entry.id
    let r := formWrites op fl.vals held s fl.todo
    let fl' := { fl with todo := r.2 }
    if r.2.length < fl.todo.length then some (r.1.setGrp tag (g.setFlight fl'), fl')
    else
      match (fl.todo.filter (fun a => !held a)).findSome? (fun a =>
        match resolve s a.target with | .leased l off => some (a, l, off) | _ => none) with
      | none => none
      | some (a, l, off) =>
        let p := formPacket s tag op a l off (valueFor fl.vals a.elem).1
        let fl' := { fl with todo := fl.todo.filter (fun b => b ≠ a), waits := fl.waits ++ [(p.dst, s.nextSeq p.dst)] }
        some ((s.setGrp tag (g.setFlight fl')).request (wordRequest s tag g fl p), fl')

/-- The writes under way of the form at the head of the queue. -/
def Grp.ownWrites (g : Grp) (id : Nat) : Option Flight := g.flights.find? (fun f => f.entry.id = id)

/-- The element group's first element, for ELEM (R417). -/
def Grp.groupElem (g : Grp) (pair : Bool) : Nat := if pair then g.progress.ie else g.progress.e

/-- The claim of a feed copy (R232). -/
def claimFeed (s : State) (g : Grp) (feed : Option Feed) : State :=
  match feed with
  | none => s
  | some fd =>
    if fd.resumed then s
    else { s with cores := s.cores.map (fun p => (p.1, { p.2 with copies := p.2.copies.map (fun j =>
      if j.launch = g.launch ∧ j.ordinal = g.ordinal ∧ j.id = fd.id then { j with claimed := some g.formId } else j) })) }

/-- Element 0 of vd at value width (R234). -/
def Grp.carryIn (g : Grp) (f : FF) (b : Block) : Nat := g.elem f.vd.toNat (if b.pair then 64 else 32) 0

/-- The form takes element 0 of vd as its carry-in (R234). -/
def takesCarry (k : FormKind) (f : FF) : Bool := match k with | .reduce | .scan _ => bitOf (FF.sub f) 0 | _ => false

/-- The running combination with which the next element group begins (R234, R240): a form that starts takes its carry-in. -/
def Grp.running (g : Grp) (k : FormKind) (f : FF) (b : Block) : Option Nat :=
  if takesCarry k f && !g.progress.v then some (g.carryIn f b) else g.progress.part

/-- A trap of an element group (R239): a FEEDFAULT leaves the claim and FD = 1 behind it, and in PART a carry-in that has been read,
so that the form goes on from FEEDBASE (R240, R242). -/
def groupTrap (s : State) (tag : Nat) (g : Grp) (k : FormKind) (f : FF) (run : FormRun) (i : TrapInfo) : State :=
  let i := { i with elem := g.groupElem run.inner.isSome }
  let g' := if i.cause = 0x0C then
      let pr := g.progress
      g.setProgress run.inner.isSome
        { pr with v := true, part := g.running k f run.outer, feed := run.feed.map (fun fd => (fd.base, fd.cpmark)) }
    else g
  let s := if i.cause = 0x0C then claimFeed s g run.feed else s
  s.setGrp tag (g'.trapHead i)

/-- Two ranges of registers meet. -/
def rangesMeet (a b : List (Nat × Nat)) : Bool :=
  a.any (fun p => b.any (fun q => decide (p.1 < q.1 + q.2) && decide (q.1 < p.1 + p.2)))

/-- The vector registers that a stream of kind 3 uses (R228, R231). -/
def Spec.registers (p : Spec) (g : Grp) (pair : Bool) : List (Nat × Nat) :=
  if p.kind = 3 then [(p.base.toNat, ceilDiv (p.count * p.esize pair) (4 * g.regWords))] else []

/-- The vector registers that a form uses: those of its streams, and vd of a reduction or scan (R228, R234). -/
def Grp.formRegisters (g : Grp) (e : VEntry) (k : FormKind) (f : FF) (run : FormRun) : List (Nat × Nat) :=
  let streams (f : FF) (ops : List W64) (pair : Bool) : List (Nat × Nat) :=
    (streamFields f ++ (if sdField f = 0 then [] else [3])).flatMap (fun n => (specOf ops n).registers g pair)
  (match k with | .reduce | .scan _ => [(f.vd.toNat, 1)] | _ => [])
    ++ streams f e.ops run.outer.pair
    ++ (match innerForm e, run.inner with
        | some (_, iff, iops), some ib => streams iff iops ib.pair
        | _, _ => [])

/-- An older word of the group has still to write a register that the form uses (R148, R245). -/
def Grp.formHazard (g : Grp) (e : VEntry) (k : FormKind) (f : FF) (run : FormRun) : Bool :=
  g.flights.any (fun h => rangesMeet h.regs (g.formRegisters e k f run))

/-- The accesses to global memory that a step makes: what it reads, but for what has been read early, and where its result goes. -/
def FormStep.accesses (early : List EarlyRead) (st : FormStep) : List Access :=
  let global (l : Loc) : List Access :=
    match l with
    | .mem a => if a.target.global then [a] else []
    | .bytes as => as.filter (fun a => a.target.global)
    | _ => []
  match st with
  | .elem i ls dest =>
    ((upTo ls.length).zip ls).flatMap (fun p => if early.any (fun q => q.elem = i && q.nth = p.1) then [] else global p.2)
      ++ dest.toList.flatMap global
  | .closeRow _ _ dest => dest.toList.flatMap global
  | .openRow _ _ _ => []

/-- The tokens that an element group takes (R322): one for each sector that it touches, its index arrays and row lengths (`extra`)
among them. -/
def planTokens (early : List EarlyRead) (steps : List FormStep) (extra : List Access) : Nat :=
  sectorCount (steps.flatMap (FormStep.accesses early) ++ extra.filter (fun a => a.target.global))

/-- The next element group probed (R239), once the writes of the one before it are performed, and those of older words to registers
that the form uses (R245). -/
def tryElementGroupProbe (s : State) (tag : Nat) : Option State := do
  let g ← s.grp tag
  let (e, k, f) ← g.headForm
  let run ← g.form
  if !g.headOpen e || run.plan.isSome || g.formHazard e k f run then none
  else
    let plan (s : State) (g : Grp) : Option State :=
      match planGroup ⟨tag, g, e, run.feed, f.ext.getLsbD 3⟩ s run k f with
      | .ok s steps extra =>
        s.ported g.core (planTokens run.early steps extra) (fun s =>
          some (s.setGrp tag { g with formPast := s.formPast tag, form := some { run with plan := some steps } }))
      | .trap s i => some (groupTrap s tag g k f run i)
      | .wait s' => ifMoved s s'
    match g.ownWrites e.id with
    | none => plan s g
    | some fl =>
      match advanceForm s tag g k f fl with
      | some (s, fl) =>
        if fl.todo = [] ∧ fl.waits = [] then
          some (s.modGrp tag (fun g => { g with flights := g.flights.filter (fun h => h.entry.id ≠ e.id) }))
        else some s
      | none =>
        if fl.todo = [] ∧ fl.waits = [] then
          plan s { g with flights := g.flights.filter (fun h => h.entry.id ≠ e.id) }
        else none

/-- ELEMENT_GROUP_PROBE (R239). -/
def execElementGroupProbe (gtag : Nat) (s : State) : Result := eventResult s (tryElementGroupProbe s gtag)

/-- The value of a place that a form reads. -/
def readPlace (v : FormView) (s : State) : Loc → Reached
  | .zero => .ok s 0
  | .reg byte n =>
    let r := withStale v 2 byte s (v.g.elem 0 (8 * n) (byte / n)) n
    .ok r.2 r.1
  | .mem a => readMem v s a
  | .bytes as => readBytes v s as

/-- The value of read `nth` of element `elem`: as it was read early, or as it is now. -/
def readLoc (v : FormView) (s : State) (early : List EarlyRead) (elem nth : Nat) (l : Loc) : Reached :=
  match early.find? (fun q => q.elem = elem && q.nth = nth && decide (q.loc = l)) with
  | some q => .ok s q.value
  | none => readPlace v s l

/-- The values of a list of places. -/
def readLocs (v : FormView) (early : List EarlyRead) (elem : Nat) :
    State → Nat → List Loc → Except State (State × List Nat)
  | s, _, [] => .ok (s, [])
  | s, nth, l :: rest =>
    match readLoc v s early elem nth l with
    | .ok s x =>
      (match readLocs v early elem s (nth + 1) rest with
       | .ok (s, xs) => .ok (s, x :: xs)
       | .error s => .error s)
    | .wait s => .error s
    | .trap s _ => .error s
    | .failed s => .error s

/-- The element of a step, and the places that it reads. -/
def FormStep.places : FormStep → Nat × List Loc
  | .elem i ls _ => (i, ls)
  | _ => (0, [])

/-- Every value that the steps of a plan read, or the state in which the reads wait. -/
def readSteps (v : FormView) (early : List EarlyRead) :
    State → List FormStep → Except State (State × List (List Nat))
  | s, [] => .ok (s, [])
  | s, st :: rest =>
    match readLocs v early st.places.1 s 0 st.places.2 with
    | .error s => .error s
    | .ok (s, xs) =>
      match readSteps v early s rest with
      | .error s => .error s
      | .ok (s, xss) => .ok (s, xs :: xss)

/-- What the computing of an element group has come to. -/
structure Computed where
  draws : Nat
  flags : Nat := 0
  /-- the running value at the group's start -/
  part : Option Nat
  /-- operands of the row under way since then -/
  pend : List Nat := []
  e : Nat
  ie : Nat
  rrow : Nat := 0
  len : Nat := 0
  /-- destinations and their values, in element order -/
  outs : List (Loc × Nat) := []

/-- The operands of the running combination. -/
def Computed.operands (c : Computed) : List Nat := c.part.toList ++ c.pend

/-- The running combination in an allowed order; the identity where there is no operand. -/
def Computed.fold (c : Computed) (b : Block) (attrs : Nat) (xs : List Nat) : Nat × Computed :=
  match xs with
  | [] => (b.ident, c)
  | _ =>
    let r := foldAllowed b attrs c.draws xs
    (r.1, { c with flags := Nat.lor c.flags r.2.1, draws := r.2.2 })

/-- One destination written. -/
def Computed.out (c : Computed) (d : Option Loc) (x : Nat) : Computed :=
  match d with
  | some l => { c with outs := c.outs ++ [(l, x)] }
  | none => c

/-- One element of a reduction or scan, with its operand (R234). -/
def combineElem (k : FormKind) (b : Block) (attrs : Nat) (c : Computed) (dest : Option Loc) (x : Nat) : Computed :=
  match k with
  | .scan ex =>
    let before := c.operands
    let c' := { c with pend := c.pend ++ [x] }
    let r := c'.fold b attrs (if ex then before else c'.operands)
    r.2.out dest r.1
  | _ => { c with pend := c.pend ++ [x] }

/-- One step of an element group computed, on the values that it read (R233-R238). `ib` is the inner block of a pair. -/
def computeStep (k : FormKind) (f : FF) (ops : List W64) (b : Block) (inner : Option (FormKind × FF × List W64 × Block))
    (c : Computed) (st : FormStep) (xs : List Nat) : Computed :=
  match inner, st with
  | none, .elem i _ dest =>
    let c := { c with e := i + 1 }
    (match k with
     | .reduce | .scan _ =>
       combineElem k b (effective b f) c dest ((specOf ops 0).extend (xs.headD 0))
     | .stencil =>
       let r := b.apply (xs.map (fun x => (specOf ops 0).extend x))
       { c with flags := Nat.lor c.flags r.2 }.out dest r.1
     | _ =>
       let r := b.apply (((streamFields f).map (specOf ops)).zipWith (fun sp x => Spec.extend sp x) xs)
       { c with flags := Nat.lor c.flags r.2 }.out dest r.1)
  | some (ik, iff, iops, ib), .elem i _ dest =>
    let c := { c with ie := i + 1, rrow := c.rrow - 1 }
    combineElem ik ib (effective ib iff) c dest ((specOf iops 0).extend (xs.headD 0))
  | some _, .openRow j len take => { c with e := j, len := len, rrow := take }
  | some (_, iff, _, ib), .closeRow j len dest =>
    let r := c.fold ib (effective ib iff) c.operands
    let c := { r.2 with part := none, pend := [], e := j + 1, rrow := 0 }
    (match dest with
     | none => c
     | some d =>
       let x := if ib.pair = b.pair then r.1 else Config.unstated 4 [r.1] % (if b.pair then 2 ^ 64 else 2 ^ 32)
       let y := b.apply [x, len]
       { c with flags := Nat.lor c.flags y.2 }.out (some d) y.1)
  | none, _ => c

/-- All steps of an element group computed. -/
def computeSteps (k : FormKind) (f : FF) (ops : List W64) (b : Block)
    (inner : Option (FormKind × FF × List W64 × Block)) : Computed → List FormStep → List (List Nat) → Computed
  | c, st :: rest, xs :: xss => computeSteps k f ops b inner (computeStep k f ops b inner c st xs) rest xss
  | c, _, _ => c

/-- The results of an element group that lie in registers are written (R228, R239). -/
def Grp.writeRegs (g : Grp) (id : Nat) : List (Loc × Nat) → Grp
  | [] => g
  | (.reg byte n, x) :: rest =>
    let old := g.elem 0 (8 * n) (byte / n)
    let h := g.setElem 0 (8 * n) (byte / n) (x % 256 ^ n)
    ({ h with formPast := { form := id, space := 2, place := byte, size := n, old := old } :: h.formPast }).writeRegs id rest
  | _ :: rest => g.writeRegs id rest

/-- Writes numbered in order, so that each has its own value. -/
def numbered : Nat → List (Loc × Nat) → List (Access × Nat)
  | _, [] => []
  | n, (.mem a, x) :: rest => ({ a with elem := n }, x) :: numbered (n + 1) rest
  | n, _ :: rest => numbered (n + 1) rest

/-- The writes of an element group in an order in which they may be made (R233): where elements of an indexed destination name the same
bytes of global memory, which of them ends there is the device's choice; in scratchpad it is the last (R243). -/
def writeOrder (s : State) : List (Access × Nat) → State × List (Access × Nat)
  | [] => (s, [])
  | w :: rest =>
    let r := writeOrder s rest
    if w.1.target.global && r.2.any (fun q => q.1.meets w.1) then
      let (k, s) := r.1.choose 2
      if k = 0 then (s, w :: r.2) else (s, r.2 ++ [w])
    else (r.1, w :: r.2)

/-- A destination of the form is indexed, and not that of a `gapply` (R233). -/
def choosesOrder (e : VEntry) (k : FormKind) : Bool :=
  decide (k ≠ .gapply) && ((specOf e.ops 3).indexed || (match innerForm e with | some (_, _, iops) => (specOf iops 3).indexed | none => false))

/-- What memory writes are about to overwrite (R245), the last first. -/
def pastOfWrites (s : State) (id : Nat) (ws : List (Access × Nat)) : List Overwritten :=
  (ws.filterMap (fun w =>
    let n := w.1.size
    match resolve s w.1.target with
    | .at pa => some { form := id, space := 0, place := pa, size := n, old := s.memRead pa n }
    | .spad k => some { form := id, space := 1, place := k, size := n, old := Memory.readNat s.spad k n }
    | _ => none)).reverse

/-- Reads made early that an element group's writes to scratchpad or registers meet: they and all of later elements are made again
(R243). -/
def dropHit (s : State) (outs : List Loc) (early : List EarlyRead) : List EarlyRead :=
  let range (l : Loc) : Option (Nat × Nat × Nat) :=
    match l with
    | .reg b n => some (2, b, n)
    | .mem a => (match resolve s a.target with | .spad k => some (1, k, a.size) | _ => none)
    | _ => none
  let meets (p q : Nat × Nat × Nat) : Bool :=
    decide (p.1 = q.1) && decide (p.2.1 < q.2.1 + q.2.2) && decide (q.2.1 < p.2.1 + p.2.2)
  let wrote := outs.filterMap range
  let hits := early.filter (fun q => match range q.loc with | some p => wrote.any (meets p) | none => false)
  early.filter (fun q => hits.all (fun h => q.elem < h.elem))

/-- What a form that ends leaves in element 0 of vd (R234). -/
def Grp.writeCarry (g : Grp) (k : FormKind) (f : FF) (b : Block) (c : Option Nat) : Grp :=
  let w := if b.pair then 64 else 32
  match k with
  | .reduce | .scan _ =>
    (match c with
     | some x => g.setElem f.vd.toNat w 0 x
     | none => if bitOf (effective b f) 2 then g.setElem f.vd.toNat w 0 b.ident else g)
  | _ => g

/-- The commit of an element group on the values it read (R239): flags, register results, progress, and the writes that are
now performable. The form leaves the queue with its last group. -/
def commitGroup (s : State) (tag : Nat) (g : Grp) (e : VEntry) (k : FormKind) (f : FF) (run : FormRun)
    (steps : List FormStep) (xs : List (List Nat)) : State :=
  let pr := g.progress
  let b := run.outer
  let inner : Option (FormKind × FF × List W64 × Block) := match innerForm e, run.inner with
    | some (ik, iff, iops), some ib => some (ik, iff, iops, ib)
    | _, _ => none
  let start : Computed := { draws := s.draws, part := g.running k f b, e := pr.e, ie := pr.ie, rrow := pr.rrow }
  let c := computeSteps k f e.ops b inner start steps xs
  let attrs := match inner with | some (_, iff, _, ib) => effective ib iff | none => effective b f
  let (part, c) := match c.pend, c.operands with
    | [], _ => (c.part, c)
    | _, ops => let r := c.fold (match inner with | some (_, _, _, ib) => ib | none => b) attrs ops; (some r.1, r.2)
  let s := claimFeed { s with draws := c.draws } g run.feed
  let (s, ws) := if choosesOrder e k then writeOrder s (numbered 0 c.outs) else (s, numbered 0 c.outs)
  let past := pastOfWrites s g.formId ws
  let g := (g.vectorFlags c.flags).writeRegs g.formId c.outs
  let g := { g with formPast := past ++ g.formPast }
  let todo := ws.map Prod.fst
  let vals := ws.map (fun w => (w.1.elem, w.2, 0))
  if c.e ≥ run.n then
    let g := g.writeCarry k f b part
    let fl : Flight := { entry := e, phase := .formWrites, todo := todo, vals := vals, form := g.formId }
    s.setGrp tag ({ g with vq := g.vq.tail, form := none, fprog := [], flights := g.flights ++ [fl] }).freeUndo
  else
    let fl : Flight := { entry := { e with flags := [] }, phase := .formWrites, todo := todo, vals := vals }
    let pr' : Prog :=
      { v := true, e := c.e, ie := c.ie, rrow := c.rrow, part := part
        feed := run.feed.map (fun fd => (fd.base, fd.cpmark)) }
    let next := if run.inner.isSome then c.ie else c.e
    let early := (dropHit s (c.outs.map Prod.fst) run.early).filter (fun q => next ≤ q.elem)
    s.setGrp tag { g.setProgress run.inner.isSome pr' with
      form := some { run with plan := none, early := early }, flights := g.flights ++ [fl] }

/-- An element group computed and committed (R239). -/
def tryElementGroupCommit (s : State) (tag : Nat) : Option State := do
  let g ← s.grp tag
  let (e, k, f) ← g.headForm
  let run ← g.form
  let steps ← run.plan
  if !g.headOpen e then none
  else
    match readSteps ⟨tag, g, e, run.feed, f.ext.getLsbD 3⟩ run.early s steps with
    | .error s' => ifMoved s s'
    | .ok (s, xs) =>
      let g := { g with formPast := s.formPast tag }
      some ((commitGroup s tag g e k f run steps xs).forget (g.agent tag unitStream e.id e.pc e.hdr))

/-- ELEMENT_GROUP_COMMIT (R239). -/
def execElementGroupCommit (gtag : Nat) (s : State) : Result := eventResult s (tryElementGroupCommit s gtag)

/-- A copy whose consumer, the form with a number, has ended is no longer remembered. -/
def dropConsumed (s : State) (g : Grp) (form : Nat) : State :=
  { s with cores := s.cores.map (fun p => (p.1, { p.2 with copies := p.2.copies.filter (fun j =>
      !(j.launch = g.launch && j.ordinal = g.ordinal && j.feed && decide (j.claimed = some form) && j.closed)) })) }

/-- The oldest form that has left the queue: its last writes are performed, and its flag falls (R246). -/
def tryFormComplete (s : State) (tag : Nat) : Option State := do
  let g ← s.grp tag
  let fl ← g.flights.find? (fun f => f.phase = .formWrites && !g.vq.any (fun e => e.id = f.entry.id))
  let (k, f) ← formOf fl.entry.instr
  let done (s : State) (g : Grp) : State := dropConsumed (s.setGrp tag (g.complete fl.entry)) g fl.form
  match advanceForm s tag g k f fl with
  | some (s, fl) =>
    if fl.todo = [] ∧ fl.waits = [] then (s.grp tag).map (done s) else some s
  | none => if fl.todo = [] ∧ fl.waits = [] then some (done s g) else none

/-- FORM_COMPLETE (R246). -/
def execFormComplete (gtag : Nat) (s : State) : Result := eventResult s (tryFormComplete s gtag)

/-- The tokens of a read ahead (R322): its own, and one for the entry of an index array that places it. -/
def aheadTokens (e : VEntry) (f : FF) (nth : Nat) : Nat :=
  let sp := match innerForm e with
    | some (_, _, iops) => specOf iops 0
    | none => specOf e.ops ((streamFields f).getD nth 0)
  if sp.indexed then 2 else 1

/-- The place of read `nth` of element `elem`, which lies ahead of the element group under way (R239): none where it has not been
reached, cannot be placed now, or has a fault, which is held until its own group is probed. -/
def placeAhead (v : FormView) (s : State) (run : FormRun) (k : FormKind) (f : FF) (elem nth : Nat) : Option (State × Loc) :=
  let p : Planner := { s := s }
  let r := match run.inner, innerForm v.e with
    | some ib, some (_, _, iops) =>
      if nth = 0 ∧ elem < (specOf iops 0).count then some (locate v p (specOf iops 0) ib.pair elem elem .read) else none
    | _, _ => if elem < run.n then ((elementReads v k f run.outer elem)[nth]?).map (fun (q : Planner → Located) => q p) else none
  match r with
  | some (.ok p l) => some (p.s, l)
  | _ => none

/-- A place may be read ahead of its own group (R239, R243, R244): in global memory only with NA = 1, or by a form that writes no
stream; in scratchpad once the writes of the earlier groups are performed. -/
def mayReadAhead (v : FormView) (run : FormRun) (f : FF) : Loc → Bool
  | .mem a =>
    (match a.target with
     | .spad _ => (match v.g.ownWrites v.e.id with | some fl => decide (fl.todo = []) | none => true)
     | _ => v.na || writesNothing)
  | .bytes _ => v.na || writesNothing
  | _ => true
where
  writesNothing : Bool :=
    decide (sdField f = 0) && (run.inner.isNone || (match innerForm v.e with | some (_, iff, _) => decide (sdField iff = 0) | none => true))

/-- One read of a form made early, by a turn of the agenda (log entry 1): read `nth` of element `elem`, of the group under way or of
one up to 8 groups ahead (R239). -/
def earlyRead (s : State) (tag elem nth : Nat) : Option State := do
  let g ← s.grp tag
  let (e, k, f) ← g.headForm
  let run ← g.form
  let v : FormView := ⟨tag, g, e, run.feed, f.ext.getLsbD 3⟩
  let next := g.groupElem run.inner.isSome
  if run.early.any (fun q => q.elem = elem && q.nth = nth) || e.trap.isSome || g.formHazard e k f run then none
  else
    let planned := (run.plan.getD []).findSome? (fun st => if st.places.1 = elem then st.places.2[nth]? else none)
    let (s, l) ← (match planned with
      | some l => some (s, l)
      | none =>
        if !s.hasTokens g.core (aheadTokens e f nth) then none
        else if next ≤ elem ∧ elem < next + 9 * 32 then
          (placeAhead v (s.spend g.core (aheadTokens e f nth)) run k f elem nth).filter (fun q => mayReadAhead v run f q.2)
        else none)
    match readPlace v s l with
    | .ok s x =>
      some (s.setGrp tag { g with formPast := s.formPast tag, form := some { run with early := ⟨elem, nth, l, x⟩ :: run.early } })
    | _ => none

/-- One write of a committed element group performed early, by a turn of the agenda (log entry 1): not before one to the same bytes that
is to be made first, which would then be the last (R233, R243, R244). -/
def earlyWrite (s : State) (tag : Nat) (g : Grp) (fl : Flight) (e : Nat) : Option State := do
  let (k, f) ← formOf fl.entry.instr
  let a ← fl.todo.find? (fun a => a.elem = e)
  if k ≠ .gapply ∧ (fl.todo.takeWhile (fun b => b ≠ a)).any (fun b => b.meets a) then none
  else
    let r := formWrites (formOp k f) fl.vals (g.flightOverlap fl.entry.id) s [a]
    if r.2 = [] then some (r.1.setGrp tag (g.setFlight { fl with todo := fl.todo.filter (fun b => b ≠ a) })) else none

/-- The next word of the clause, after the one at hand. -/
def Grp.nextWord (g : Grp) : Option W64 := g.clause[(g.pc - g.hdr).toNat / 8 + 1]?

/-- The inner form that the next word is, where it is one that a pair may have (R238). -/
def Grp.innerWord (g : Grp) : Option (Instr × FF) := do
  let w ← g.nextWord
  let f := FF.ofWord w
  let i ← (match opOf w, fnOf w with
    | 0x52, 0 => some (Instr.reduce f)
    | 0x53, 0 => some (Instr.scan f)
    | 0x53, 1 => some (Instr.scanX f)
    | _, _ => none)
  if f.nest = 0 ∧ f.vd = 0 ∧ f.cf = 0 ∧ !bitOf (FF.sub f) 0 then some (i, f) else none

/-- A form enters the queue (R140, R227). -/
def issueForm (i : Instr) (f : FF) (s : State) : Result :=
  .next (issueVector i { reads := formReads f, cf := f.cf } s)

/-- `map` (R233), and with NEST the pair of it and the next word (R238). DESIGN CHOICE (log entry 35): an inner word that breaks a decode
check which R238 does not list gives the outer word its reasons, so that the trap is taken at the `map` before the pair issues. -/
def execMap (f : FF) (s : State) : Result :=
  if f.nest = 0 then issueForm (.map f) f s
  else
    match (s.grp s.sched.cur).bind Grp.innerWord with
    | none => .next (issueChecked ((Instr.map f).check.or4 true) (.map f) {} s)
    | some (i, g) =>
      let c := (Instr.map f).check
      let c := { c with reasons := c.reasons ++ i.check.reasons }
      .next (issueChecked c (.map f) { reads := formReads f, cf := f.cf, inner := some (i, formReads g) } s)

/-- `zip` (R233). -/
def execZip (f : FF) (s : State) : Result := issueForm (.zip f) f s
/-- `reduce` (R234). -/
def execReduce (f : FF) (s : State) : Result := issueForm (.reduce f) f s
/-- `scan` (R234). -/
def execScan (f : FF) (s : State) : Result := issueForm (.scan f) f s
/-- `scan.x` (R234). -/
def execScanX (f : FF) (s : State) : Result := issueForm (.scanX f) f s
/-- `stencil` (R235). -/
def execStencil (f : FF) (s : State) : Result := issueForm (.stencil f) f s
/-- `gapply` (R236). -/
def execGapply (f : FF) (s : State) : Result := issueForm (.gapply f) f s

/-- A word is a form word (R65). -/
def isFormWord (w : W64) : Bool :=
  (decide (0x50 ≤ opOf w) && decide (opOf w ≤ 0x55) && decide (fnOf w = 0)) || (decide (opOf w = 0x53) && decide (fnOf w = 1))

/-- The words that a conditional `fbar` skips where `w` is the next word of its clause: the form, and with NEST its inner word, which
is the word after it in the clause (R238, R248). -/
def Grp.skipCount (g : Grp) (w : W64) : Nat :=
  if opOf w = 0x50 ∧ w.getLsbD 12 ∧ (g.clause[(g.pc - g.hdr).toNat / 8 + 2]?).isSome then 2 else 1

/-- `fbar` (R247, R248). -/
def execFbar (f : FS) (s : State) : Result :=
  let cond := f.ext.getLsbD 0
  let next := (s.grp s.sched.cur).bind Grp.nextWord
  let c := (f.check false cond false false 0x3).or4 (cond && !(next.any isFormWord))
  .next (issueControl { check := c, reads := [f.sa], drained := true } (fun s tag g =>
    if g.flights.any (fun h => (formOf h.entry.instr).isSome) then .stall s
    else
      let u := s.coreAt g.core
      let s := if f.ext.getLsbD 1 then
          s.setCore g.core { u with
            blocks := u.blocks.filter (fun k => k.launch ≠ g.launch)
            blockPast := u.blockPast.filter (fun k => k.1 ≠ g.launch) } else s
      let g := { g with formPast := [] }
      let skips := if cond && decide (g.reg f.sa.toNat = 0) then (next.map g.skipCount).getD 0 else 0
      .gone (s.setGrp tag ((List.range (skips + 1)).foldl (fun g _ => g.advance) g))) s)

end Sys2Proof.Machine
end

