-- ==== Sys2Proof/Machine/Approx.lean ====
section
/-!
DEFINITION. The approximations of OP 0x27 (R207, R208): the values the manual fixes, and elsewhere a free value within the
bound that keeps the order of the results (log entry 10). The bound is measured against the exact function, computed here with
100 bits after the point.
-/
namespace Sys2Proof.Machine

/-- Bits after the point. -/
abbrev fixP : Nat := 100

/-- The product of two fixed-point numbers. -/
def fixMul (x y : Nat) : Nat := x * y / 2 ^ fixP

/-- The first terms of Σ 2^P / (k·2^k): the natural logarithm of 2. -/
def lnTwoFrom (k : Nat) : Nat → Nat
  | 0 => 0
  | n + 1 => 2 ^ fixP / (k * 2 ^ k) + lnTwoFrom (k + 1) n
/-- The natural logarithm of 2. -/
def lnTwo : Nat := lnTwoFrom 1 110

/-- Terms of the exponential series from term `t`, numbered `i`. -/
def expFrom (y t i : Nat) : Nat → Nat
  | 0 => 0
  | n + 1 => t + expFrom y (fixMul t y / (i + 1)) (i + 1) n

/-- 2^f for a fixed-point f in [0, 1). -/
def exp2Frac (f : Nat) : Nat := expFrom (fixMul f lnTwo) (2 ^ fixP) 0 40

/-- Terms of atanh u = Σ u^(2i+1)/(2i+1); `t` is u^(2i+1). -/
def atanhFrom (u2 t i : Nat) : Nat → Nat
  | 0 => 0
  | n + 1 => t / (2 * i + 1) + atanhFrom u2 (fixMul t u2) (i + 1) n

/-- log2 z for a fixed-point z in [1, 2). -/
def log2Frac (z : Nat) : Nat :=
  let u := (z - 2 ^ fixP) * 2 ^ fixP / (z + 2 ^ fixP)
  2 * atanhFrom (fixMul u u) u 0 40 * 2 ^ fixP / lnTwo

/-- A finite value as a fixed-point integer. -/
def toFix (neg : Bool) (m : Nat) (e : Int) : Int :=
  let k : Int := e + fixP
  signedOf neg (if k ≥ 0 then m * 2 ^ k.toNat else m / 2 ^ (-k).toNat)

/-- The magnitude of 2^x for a fixed-point x: significand and exponent. -/
def exp2Fix (x : Int) : Nat × Int :=
  let k := x / 2 ^ fixP
  (exp2Frac (x - k * 2 ^ fixP).toNat, k - fixP)

/-- log2 of m·2^e, in fixed point. -/
def log2Fix (m : Nat) (e : Int) : Int :=
  let l := log2Floor m
  let z := if l ≤ fixP then m * 2 ^ (fixP - l) else m / 2 ^ (l - fixP)
  (e + l) * 2 ^ fixP + log2Frac z

/-- tanh of a fixed-point x ≥ 0, in fixed point. -/
def tanhFix (x : Nat) : Nat :=
  let (m, e) := exp2Fix (2 * x * 2 ^ fixP / lnTwo : Nat)
  let big := m * 2 ^ (e + fixP).toNat
  (big - 2 ^ fixP) * 2 ^ fixP / (big + 2 ^ fixP)

/-- |(−1)^n1·m1·2^e1 − (−1)^n2·m2·2^e2| is at most t·2^q. -/
def within2 (n1 : Bool) (m1 : Nat) (e1 : Int) (n2 : Bool) (m2 : Nat) (e2 : Int) (t : Nat) (q : Int) : Bool :=
  let e := min e1 (min e2 q)
  let d := signedOf n1 (m1 * 2 ^ (e1 - e).toNat) - signedOf n2 (m2 * 2 ^ (e2 - e).toNat)
  decide (d.natAbs ≤ t * 2 ^ (q - e).toNat)

/-- The results R207 allows at one input: within `ulps` units in the last place of ±m·2^e, or within 2^absTol of it where
that is larger. -/
structure Bound where
  neg : Bool
  m : Nat
  e : Int
  ulps : Nat
  absTol : Int := -1000
  /-- The result stays in [−1, 1] (`vftanh`). -/
  unit : Bool := false
  /-- The result is subnormal or zero (R208, `vfrcp` of a magnitude above 2^126). -/
  tiny : Bool := false

/-- The f32 `c` is a result the bound allows. -/
def Bound.holds (b : Bound) (c : Nat) : Bool :=
  let ulp : Int := max (b.e + log2Floor b.m - 23) (-149)
  (!b.tiny || decide (c % 2 ^ 31 < 0x00800000)) &&
    match readFloat 8 c with
    | .fin n cm ce =>
      (within2 n cm ce b.neg b.m b.e b.ulps ulp || within2 n cm ce b.neg b.m b.e 1 b.absTol)
        && (!b.unit || within2 n cm ce n 0 0 1 0)
    | _ => false

/-- The f32 nearest to the exact value; the greatest subnormal where the result must not be normal. -/
def Bound.nearest (b : Bound) : Nat :=
  let r := (narrowExact 8 1 false ⟨b.neg, b.m, b.e, true⟩).1
  if b.tiny && decide (r % 2 ^ 31 ≥ 0x00800000) then withSign (floatFmt 8) b.neg 0x007FFFFF else r

/-- One element of an approximation: a result the manual fixes, or the results a bound allows; each with its flags (R208). -/
inductive Approx
  | exact (r : Nat × Nat)
  | within (b : Bound) (flags : Nat)

/-- The result a pick gives: the pick where the bound allows it, else the nearest f32. -/
def Approx.value (a : Approx) (pick : Nat) : Nat :=
  match a with
  | .exact r => r.1
  | .within b _ => if b.holds pick then pick else b.nearest

/-- The power of two that a finite magnitude is, if it is one. -/
def powerOfTwo (m : Nat) (e : Int) : Option Int := if m = 2 ^ log2Floor m then some (e + log2Floor m) else none

/-- ±2^k as an f32, where it can be held. -/
def f32Power (neg : Bool) (k : Int) : Nat := (narrowExact 8 1 false ⟨neg, 1, k, false⟩).1

/-- `vfexp2` of one element (R207, R208). -/
def caseExp2 (x : Nat) : Approx :=
  match readFloat 8 x with
  | .nan s => .exact (nanResult 8 s)
  | .inf n => .exact (if n then 0 else infinity (floatFmt 8) false, 0)
  | .fin n m e =>
    let whole := decide (e ≥ 0) || decide (m % 2 ^ (-e).toNat = 0)
    let k := signedOf n (if e ≥ 0 then m * 2 ^ e.toNat else m / 2 ^ (-e).toNat)
    if m = 0 then .exact (f32Power false 0, 0)
    else if valueLt (.fin n m e) (.fin true 150 0) then .exact (0, flUF + flNX)
    else if !valueLt (.fin n m e) (.fin false 128 0) then .exact (infinity (floatFmt 8) false, flOF + flNX)
    else if whole && decide (-149 ≤ k) && decide (k ≤ 127) then .exact (f32Power false k, 0)
    else
      let (rm, re) := exp2Fix (toFix n m e)
      .within ⟨false, rm, re, 2, -1000, false, false⟩ flNX

/-- `vflog2` of one element (R207, R208). -/
def caseLog2 (x : Nat) : Approx :=
  match readFloat 8 x with
  | .nan s => .exact (nanResult 8 s)
  | .inf n => .exact (if n then nanResult 8 true else (infinity (floatFmt 8) false, 0))
  | .fin n m e =>
    if m = 0 then .exact (infinity (floatFmt 8) true, flDZ)
    else if n then .exact (nanResult 8 true)
    else match powerOfTwo m e with
      | some k => .exact ((intToFloat 8 1 false k).1, 0)
      | none =>
        let y := log2Fix m e
        .within ⟨decide (y < 0), y.natAbs, -(fixP : Int), 2, -22, false, false⟩ flNX

/-- `vfrcp` of one element (R207, R208). DESIGN CHOICE (log entry 10): the reciprocal of a nonzero magnitude of 2^-128 and below, beyond
the greatest f32, is ∞ with OF and NX. -/
def caseRcp (x : Nat) : Approx :=
  match readFloat 8 x with
  | .nan s => .exact (nanResult 8 s)
  | .inf n => .exact (withSign (floatFmt 8) n 0, 0)
  | .fin n m e =>
    if m = 0 then .exact (infinity (floatFmt 8) n, flDZ)
    else
      let q := exactDiv false 1 0 false m e
      match powerOfTwo m e with
      | some k =>
        if -126 ≤ -k ∧ -k ≤ 127 then .exact (f32Power n (-k), 0)
        else if -k > 127 then .exact (floatDiv 8 1 (.fin n 1 0) (.fin false m e))
        else .within ⟨n, q.m, q.e, 1, -1000, false, true⟩ (flUF + flNX)
      | none =>
        if q.exponent > 127 then .exact (floatDiv 8 1 (.fin n 1 0) (.fin false m e))
        else if q.exponent < -126 then .within ⟨n, q.m, q.e, 1, -1000, false, true⟩ (flUF + flNX)
        else .within ⟨n, q.m, q.e, 1, -1000, false, false⟩ flNX

/-- `vfrsq` of one element (R207, R208). -/
def caseRsq (x : Nat) : Approx :=
  match readFloat 8 x with
  | .nan s => .exact (nanResult 8 s)
  | .inf n => .exact (if n then nanResult 8 true else (0, 0))
  | .fin n m e =>
    if m = 0 then .exact (infinity (floatFmt 8) n, flDZ)
    else if n then .exact (nanResult 8 true)
    else match powerOfTwo m e with
      | some k =>
        if k % 2 = 0 then .exact (f32Power false (-(k / 2)), 0)
        else
          let r := exactSqrt (2 ^ 200) (-k)
          .within ⟨false, r.m, r.e - 100, 1, -1000, false, false⟩ flNX
      | none =>
        let odd := e % 2 ≠ 0
        let m' := if odd then 2 * m else m
        let e' := if odd then e - 1 else e
        let r := sqrtFrom (2 ^ 240 / m') 120 0
        .within ⟨false, r, -(e' / 2) - 120, 1, -1000, false, false⟩ flNX

/-- `vftanh` of one element (R207, R208). -/
def caseTanh (x : Nat) : Approx :=
  match readFloat 8 x with
  | .nan s => .exact (nanResult 8 s)
  | .inf n => .exact (f32Power n 0, 0)
  | .fin n m e =>
    if m = 0 then .exact (x, 0)
    else if !valueLt (.fin false m e) (.fin false 9 0) then .exact (f32Power n 0, flNX)
    else
      let y := tanhFix (toFix false m e).toNat
      .within ⟨n, y, -(fixP : Int), 2, -24, true, false⟩ flNX

/-- The approximations, in the order of R207's table. -/
inductive ApproxOp
  | exp2 | log2 | rcp | rsq | tanh
  deriving DecidableEq, Repr

/-- The row of R207's table. -/
def ApproxOp.number : ApproxOp → Nat
  | .exp2 => 0
  | .log2 => 1
  | .rcp => 2
  | .rsq => 3
  | .tanh => 4

/-- The results allowed at an input. -/
def ApproxOp.allowed : ApproxOp → Nat → Approx
  | .exp2 => caseExp2
  | .log2 => caseLog2
  | .rcp => caseRcp
  | .rsq => caseRsq
  | .tanh => caseTanh

/-- The free choice at an input; the same bits give the same choice (R207). -/
def ApproxOp.pick (o : ApproxOp) (x : Nat) : Nat := (Config.approxBits o.number (BitVec.ofNat 32 x)).toNat

/-- The result at `x` must not exceed the one at `y`: R207's column Monotonic. -/
def ApproxOp.below (o : ApproxOp) (x y : Nat) : Bool :=
  let a := readFloat 8 x
  let b := readFloat 8 y
  let zero : FVal := .fin false 0 0
  match o with
  | .exp2 | .tanh => valueLt a b
  | .log2 => valueLt zero a && valueLt a b
  | .rcp => decide (x / 2 ^ 31 = y / 2 ^ 31) && valueLt b a
  | .rsq => valueLt zero b && valueLt b a

/-- The free choices keep the results in the order R207 requires. -/
def ApproxOp.monotonic (o : ApproxOp) : Bool :=
  let value := fun x => readFloat 8 ((o.allowed x).value (o.pick x))
  decide (∀ x < 2 ^ 32, ∀ y < 2 ^ 32, o.below x y = true → valueLt (value y) (value x) = false)

/-- One element of an approximation word (R207, R208): the result the manual fixes; else the free choice, where the choices
stay within the bounds and in order; else the nearest f32 (log entry 10). -/
def ApproxOp.result (o : ApproxOp) (x : Nat) : Nat × Nat :=
  match o.allowed x with
  | .exact r => r
  | .within b flags => (if o.monotonic then (Approx.within b flags).value (o.pick x) else b.nearest, flags)

/-- `vfexp2` of one element. -/
def approxExp2 (x : Nat) : Nat × Nat := ApproxOp.exp2.result x
/-- `vflog2` of one element. -/
def approxLog2 (x : Nat) : Nat × Nat := ApproxOp.log2.result x
/-- `vfrcp` of one element. -/
def approxRcp (x : Nat) : Nat × Nat := ApproxOp.rcp.result x
/-- `vfrsq` of one element. -/
def approxRsq (x : Nat) : Nat × Nat := ApproxOp.rsq.result x
/-- `vftanh` of one element. -/
def approxTanh (x : Nat) : Nat × Nat := ApproxOp.tanh.result x

end Sys2Proof.Machine
end

