-- ==== Sys2Proof/Machine/VecArith.lean ====
section
/-!
DEFINITION. Element-wise arithmetic, approximations and dot products (R200-R209, 09_vector_instructions.md): the operation on
one element, what each word does to the group at vector issue (`eff…`), and its entry into the vector queue (`exec…`).
-/
namespace Sys2Proof.Machine

/-- An operation on one element: type, rounding mode, SAT, and the operands' bits; result and flags. -/
abbrev ElemOp := Nat → Nat → Bool → Nat → Nat → Nat × Nat

/-- An exact integer result: wrapped, or clamped under SAT with SI (R206). -/
def intResult (t : Nat) (sat : Bool) (x : Int) : Nat × Nat :=
  let w := typeWidth t
  let r := intRange t
  if sat then (if x < r.1 then (ofInt w r.1, flSI) else if x > r.2 then (ofInt w r.2, flSI) else (ofInt w x, 0))
  else (ofInt w x, 0)

/-- `vadd` of one element (R206). -/
def opAdd : ElemOp := fun t rm sat a b =>
  if isFloatCode t then floatAdd t rm (readFloat t a) (readFloat t b) else intResult t sat (intValue t a + intValue t b)
/-- `vsub` of one element (R206). -/
def opSub : ElemOp := fun t rm sat a b =>
  if isFloatCode t then floatSub t rm (readFloat t a) (readFloat t b) else intResult t sat (intValue t a - intValue t b)
/-- `vmul` of one element (R206). -/
def opMul : ElemOp := fun t rm sat a b =>
  if isFloatCode t then floatMul t rm (readFloat t a) (readFloat t b) else intResult t sat (intValue t a * intValue t b)
/-- `vmin` of one element (R206). -/
def opMin : ElemOp := fun t _ _ a b =>
  if isFloatCode t then floatMinMax t false a b else (if intValue t b < intValue t a then b else a, 0)
/-- `vmax` of one element (R206). -/
def opMax : ElemOp := fun t _ _ a b =>
  if isFloatCode t then floatMinMax t true a b else (if intValue t a < intValue t b then b else a, 0)
/-- `vand` of one element (R206). -/
def opAnd : ElemOp := fun _ _ _ a b => (Nat.land a b, 0)
/-- `vor` of one element (R206). -/
def opOr : ElemOp := fun _ _ _ a b => (Nat.lor a b, 0)
/-- `vxor` of one element (R206). -/
def opXor : ElemOp := fun _ _ _ a b => (Nat.xor a b, 0)
/-- `vnot` of one element (R206). -/
def opNot : ElemOp := fun t _ _ a _ => (2 ^ typeWidth t - 1 - a % 2 ^ typeWidth t, 0)
/-- `vsll` of one element (R206). -/
def opSll : ElemOp := fun t _ _ a b => (a * 2 ^ (b % typeWidth t) % 2 ^ typeWidth t, 0)
/-- `vsrl` of one element (R206). -/
def opSrl : ElemOp := fun t _ _ a b => (a / 2 ^ (b % typeWidth t), 0)
/-- `vsra` of one element (R206). -/
def opSra : ElemOp := fun t _ _ a b => (ofInt (typeWidth t) (toSigned (typeWidth t) a / 2 ^ (b % typeWidth t)), 0)
/-- `vdiv` of one element (R206). -/
def opDiv : ElemOp := fun t rm _ a b =>
  if isFloatCode t then floatDiv t rm (readFloat t a) (readFloat t b)
  else if b % 2 ^ typeWidth t = 0 then (2 ^ typeWidth t - 1, 0)
  else (ofInt (typeWidth t) (Int.tdiv (intValue t a) (intValue t b)), 0)
/-- `vsqrt` of one element (R206). -/
def opSqrt : ElemOp := fun t rm _ a _ => floatSqrt t rm (readFloat t a)
/-- `vabs` of one element (R206). -/
def opAbs : ElemOp := fun t _ sat a _ =>
  let w := typeWidth t
  if isFloatCode t then (a % 2 ^ (w - 1), 0) else intResult t sat (intValue t a).natAbs
/-- `vneg` of one element (R206). -/
def opNeg : ElemOp := fun t _ sat a _ =>
  let w := typeWidth t
  if isFloatCode t then (Nat.xor a (2 ^ (w - 1)), 0) else intResult t sat (-intValue t a)
/-- `vmulh` of one element (R206). -/
def opMulh : ElemOp := fun t _ _ a b =>
  (ofInt (typeWidth t) (intValue t a * intValue t b / 2 ^ typeWidth t), 0)
/-- `vabd` of one element (R206). -/
def opAbd : ElemOp := fun t rm _ a b =>
  let w := typeWidth t
  if isFloatCode t then
    let x := readFloat t a
    let y := readFloat t b
    let r := if valueLt x y then floatSub t rm y x else floatSub t rm x y
    (r.1 % 2 ^ (w - 1), r.2)
  else ((intValue t a - intValue t b).natAbs % 2 ^ w, 0)
/-- The type of a widening result (R206). -/
def wideType (t : Nat) : Nat := if isFloatCode t then 8 else t + 1
/-- `vwadd` of one element (R206). -/
def opWadd : ElemOp := fun t rm _ a b =>
  if isFloatCode t then floatAdd 8 rm (readFloat t a) (readFloat t b)
  else (ofInt (2 * typeWidth t) (intValue t a + intValue t b), 0)
/-- `vwmul` of one element (R206). -/
def opWmul : ElemOp := fun t rm _ a b =>
  if isFloatCode t then floatMul 8 rm (readFloat t a) (readFloat t b)
  else (ofInt (2 * typeWidth t) (intValue t a * intValue t b), 0)
/-- `vclz` of one element (R206). -/
def opClz : ElemOp := fun t _ _ a _ => (leadingZeros (typeWidth t) a, 0)
/-- `vctz` of one element (R206). -/
def opCtz : ElemOp := fun t _ _ a _ => (trailingZeros (typeWidth t) a, 0)
/-- `vpopc` of one element (R206). -/
def opPopc : ElemOp := fun t _ _ a _ => (popCount (typeWidth t) a, 0)
/-- `vfsgnj` of one element (R206). -/
def opSgnj : ElemOp := fun t _ _ a b =>
  let w := typeWidth t
  (a % 2 ^ (w - 1) + b / 2 ^ (w - 1) % 2 * 2 ^ (w - 1), 0)
/-- `vfround` of one element (R206). -/
def opRound : ElemOp := fun t rm _ a _ => floatRound t rm a

/-- An element-wise word of two vector sources, or of one with `vb` unread (R200). -/
def Grp.elementwise (g : Grp) (f : FV) (op : ElemOp) : Grp :=
  let v := f.view
  let t := g.typeOf v
  let w := typeWidth t
  g.loop v w (fun e => op t (g.rmOf v) (v.sat = 1) (g.elem v.va w e) (g.elem v.vb w e))

/-- An element-wise word with a scalar operand (R200). -/
def Grp.elementScalar (g : Grp) (f : FVS) (ops : List W64) (op : ElemOp) : Grp :=
  let v := f.view
  let t := g.typeOf v
  let w := typeWidth t
  g.loop v w (fun e => op t (g.rmOf v) (v.sat = 1) (g.elem v.va w e) (scalarLow ops w))

/-- An element-wise word with an immediate: sign_extend(imm12) truncated to w (R206). -/
def Grp.elementImm (g : Grp) (f : FV) (op : ElemOp) : Grp :=
  let v := f.view
  let t := g.typeOf v
  let w := typeWidth t
  g.loop v w (fun e => op t (g.rmOf v) (v.sat = 1) (g.elem v.va w e) (ofInt w (toSigned 12 (v.imm / 16))))

/-- A widening word: the destination at twice the width (R206). -/
def Grp.elementWide (g : Grp) (f : FV) (op : ElemOp) : Grp :=
  let v := f.view
  let t := g.typeOf v
  let w := typeWidth t
  g.loop v (2 * w) (fun e => op t (g.rmOf v) false (g.elem v.va w e) (g.elem v.vb w e))

/-- A fused multiply-add word: (±a)·b ± c, rounded once (R206). -/
def Grp.elementFma (g : Grp) (f : FV) (negA negC : Bool) : Grp :=
  let v := f.view
  let t := g.typeOf v
  let w := typeWidth t
  let sign (n : Bool) (x : FVal) : FVal := if n then x.negate else x
  g.loop v w (fun e =>
    floatFma t (g.rmOf v) (sign negA (readFloat t (g.elem v.va w e))) (readFloat t (g.elem v.vb w e))
      (sign negC (readFloat t (g.elem v.vc w e))))

/-- An approximation word (R207). -/
def Grp.elementApprox (g : Grp) (f : FV) (op : Nat → Nat × Nat) : Grp :=
  g.loop f.view 32 (fun e => op (g.elem f.view.va 32 e))

/-- The exact sum of values, the sign of a zero sum as IEEE 754-2019 gives it for two operands at a time (R209). -/
def exactSum (rm : Nat) : FVal → List FVal → FVal
  | x, [] => x
  | x, y :: ys =>
    match x, y with
    | .fin n1 m1 e1, .fin n2 m2 e2 =>
      let s := exactAdd rm n1 m1 e1 n2 m2 e2
      exactSum rm (.fin s.neg s.m s.e) ys
    | .nan s, .nan q => exactSum rm (.nan (s || q)) ys
    | .nan s, _ => exactSum rm (.nan s) ys
    | _, .nan s => exactSum rm (.nan s) ys
    | .inf n, .inf m => exactSum rm (if n = m then .inf n else .nan true) ys
    | .inf n, _ => exactSum rm (.inf n) ys
    | _, .inf n => exactSum rm (.inf n) ys

/-- `finish` of a float dot product: the sum rounded once to f32; a NaN operand gives NaN, with NV when signalling, an
invalid product, or +∞ and −∞ anywhere in the sum, gives NaN with NV (R209). -/
def floatDot (t rm : Nat) (c : Nat) (ab : List (Nat × Nat)) : Nat × Nat :=
  let prods := ab.map (fun p => productOf (readFloat t p.1) (readFloat t p.2))
  let opposed := (readFloat 8 c :: prods).contains (.inf false) && (readFloat 8 c :: prods).contains (.inf true)
  let sig := opposed || (readFloat 8 c).sig || ab.any (fun p => (readFloat t p.1).sig || (readFloat t p.2).sig)
  match exactSum rm (readFloat 8 c) prods with
  | .nan s => nanResult 8 (s || sig)
  | x => narrowFloat 8 rm false x

/-- A dot product of groups of `k` source elements (R209). -/
def Grp.dot (g : Grp) (f : FV) (k : Nat) (finish : Nat → Nat → Nat → List (Nat × Nat) → Nat × Nat) : Grp :=
  let v := f.view
  let t := g.typeOf v
  let w := typeWidth t
  let ds := (upTo (ceilDiv g.vl k)).filter (fun d => (upFrom (k * d) k).any (fun e => g.active v.mreg e))
  let rs := ds.map (fun d =>
    let es := (upFrom (k * d) k).filter (fun e => g.active v.mreg e && decide (e < g.vtail))
    (d, finish t (g.rmOf v) (g.elem v.vc 32 d) (es.map (fun e => (g.elem v.va w e, g.elem v.vb w e)))))
  (g.putAll v.vd 32 (rs.map (fun r => (r.1, r.2.1)))).raiseElements v (rs.map (fun r => (k * r.1, r.2.2)))

/-- `finish` of `vdot4` (R209). -/
def intDot (sat : Bool) (t _rm c : Nat) (ab : List (Nat × Nat)) : Nat × Nat :=
  let td := if t < 4 then 2 else 6
  intResult td sat (intValue td c + (ab.map (fun p => intValue t p.1 * intValue t p.2)).sum)

/-- `vadd` at vector issue (R206). -/
def effVadd (g : Grp) (f : FV) (_ops : List W64) : Grp := g.elementwise f opAdd
/-- `vadd` (R206). -/
def execVadd (f : FV) (s : State) : Result := .next (issueVector (.vadd f) {} s)

/-- `vsub` at vector issue (R206). -/
def effVsub (g : Grp) (f : FV) (_ops : List W64) : Grp := g.elementwise f opSub
/-- `vsub` (R206). -/
def execVsub (f : FV) (s : State) : Result := .next (issueVector (.vsub f) {} s)

/-- `vmul` at vector issue (R206). -/
def effVmul (g : Grp) (f : FV) (_ops : List W64) : Grp := g.elementwise f opMul
/-- `vmul` (R206). -/
def execVmul (f : FV) (s : State) : Result := .next (issueVector (.vmul f) {} s)

/-- `vmin` at vector issue (R206). -/
def effVmin (g : Grp) (f : FV) (_ops : List W64) : Grp := g.elementwise f opMin
/-- `vmin` (R206). -/
def execVmin (f : FV) (s : State) : Result := .next (issueVector (.vmin f) {} s)

/-- `vmax` at vector issue (R206). -/
def effVmax (g : Grp) (f : FV) (_ops : List W64) : Grp := g.elementwise f opMax
/-- `vmax` (R206). -/
def execVmax (f : FV) (s : State) : Result := .next (issueVector (.vmax f) {} s)

/-- `vand` at vector issue (R206). -/
def effVand (g : Grp) (f : FV) (_ops : List W64) : Grp := g.elementwise f opAnd
/-- `vand` (R206). -/
def execVand (f : FV) (s : State) : Result := .next (issueVector (.vand f) {} s)

/-- `vor` at vector issue (R206). -/
def effVor (g : Grp) (f : FV) (_ops : List W64) : Grp := g.elementwise f opOr
/-- `vor` (R206). -/
def execVor (f : FV) (s : State) : Result := .next (issueVector (.vor f) {} s)

/-- `vxor` at vector issue (R206). -/
def effVxor (g : Grp) (f : FV) (_ops : List W64) : Grp := g.elementwise f opXor
/-- `vxor` (R206). -/
def execVxor (f : FV) (s : State) : Result := .next (issueVector (.vxor f) {} s)

/-- `vnot` at vector issue (R206). -/
def effVnot (g : Grp) (f : FV) (_ops : List W64) : Grp := g.elementwise f opNot
/-- `vnot` (R206). -/
def execVnot (f : FV) (s : State) : Result := .next (issueVector (.vnot f) {} s)

/-- `vsll` at vector issue (R206). -/
def effVsll (g : Grp) (f : FV) (_ops : List W64) : Grp := g.elementwise f opSll
/-- `vsll` (R206). -/
def execVsll (f : FV) (s : State) : Result := .next (issueVector (.vsll f) {} s)

/-- `vsrl` at vector issue (R206). -/
def effVsrl (g : Grp) (f : FV) (_ops : List W64) : Grp := g.elementwise f opSrl
/-- `vsrl` (R206). -/
def execVsrl (f : FV) (s : State) : Result := .next (issueVector (.vsrl f) {} s)

/-- `vsra` at vector issue (R206). -/
def effVsra (g : Grp) (f : FV) (_ops : List W64) : Grp := g.elementwise f opSra
/-- `vsra` (R206). -/
def execVsra (f : FV) (s : State) : Result := .next (issueVector (.vsra f) {} s)

/-- `vdiv` at vector issue (R206). -/
def effVdiv (g : Grp) (f : FV) (_ops : List W64) : Grp := g.elementwise f opDiv
/-- `vdiv` (R206). -/
def execVdiv (f : FV) (s : State) : Result := .next (issueVector (.vdiv f) {} s)

/-- `vsqrt` at vector issue (R206). -/
def effVsqrt (g : Grp) (f : FV) (_ops : List W64) : Grp := g.elementwise f opSqrt
/-- `vsqrt` (R206). -/
def execVsqrt (f : FV) (s : State) : Result := .next (issueVector (.vsqrt f) {} s)

/-- `vabs` at vector issue (R206). -/
def effVabs (g : Grp) (f : FV) (_ops : List W64) : Grp := g.elementwise f opAbs
/-- `vabs` (R206). -/
def execVabs (f : FV) (s : State) : Result := .next (issueVector (.vabs f) {} s)

/-- `vneg` at vector issue (R206). -/
def effVneg (g : Grp) (f : FV) (_ops : List W64) : Grp := g.elementwise f opNeg
/-- `vneg` (R206). -/
def execVneg (f : FV) (s : State) : Result := .next (issueVector (.vneg f) {} s)

/-- `vmulh` at vector issue (R206). -/
def effVmulh (g : Grp) (f : FV) (_ops : List W64) : Grp := g.elementwise f opMulh
/-- `vmulh` (R206). -/
def execVmulh (f : FV) (s : State) : Result := .next (issueVector (.vmulh f) {} s)

/-- `vabd` at vector issue (R206). -/
def effVabd (g : Grp) (f : FV) (_ops : List W64) : Grp := g.elementwise f opAbd
/-- `vabd` (R206). -/
def execVabd (f : FV) (s : State) : Result := .next (issueVector (.vabd f) {} s)

/-- `vclz` at vector issue (R206). -/
def effVclz (g : Grp) (f : FV) (_ops : List W64) : Grp := g.elementwise f opClz
/-- `vclz` (R206). -/
def execVclz (f : FV) (s : State) : Result := .next (issueVector (.vclz f) {} s)

/-- `vctz` at vector issue (R206). -/
def effVctz (g : Grp) (f : FV) (_ops : List W64) : Grp := g.elementwise f opCtz
/-- `vctz` (R206). -/
def execVctz (f : FV) (s : State) : Result := .next (issueVector (.vctz f) {} s)

/-- `vpopc` at vector issue (R206). -/
def effVpopc (g : Grp) (f : FV) (_ops : List W64) : Grp := g.elementwise f opPopc
/-- `vpopc` (R206). -/
def execVpopc (f : FV) (s : State) : Result := .next (issueVector (.vpopc f) {} s)

/-- `vfsgnj` at vector issue (R206). -/
def effVfsgnj (g : Grp) (f : FV) (_ops : List W64) : Grp := g.elementwise f opSgnj
/-- `vfsgnj` (R206). -/
def execVfsgnj (f : FV) (s : State) : Result := .next (issueVector (.vfsgnj f) {} s)

/-- `vfround` at vector issue (R206). -/
def effVfround (g : Grp) (f : FV) (_ops : List W64) : Grp := g.elementwise f opRound
/-- `vfround` (R206). -/
def execVfround (f : FV) (s : State) : Result := .next (issueVector (.vfround f) {} s)

/-- `vaddVs` at vector issue (R206). -/
def effVaddVs (g : Grp) (f : FVS) (ops : List W64) : Grp := g.elementScalar f ops opAdd
/-- `vaddVs` (R206). -/
def execVaddVs (f : FVS) (s : State) : Result := .next (issueVector (.vaddVs f) { reads := [f.sb] } s)

/-- `vsubVs` at vector issue (R206). -/
def effVsubVs (g : Grp) (f : FVS) (ops : List W64) : Grp := g.elementScalar f ops opSub
/-- `vsubVs` (R206). -/
def execVsubVs (f : FVS) (s : State) : Result := .next (issueVector (.vsubVs f) { reads := [f.sb] } s)

/-- `vmulVs` at vector issue (R206). -/
def effVmulVs (g : Grp) (f : FVS) (ops : List W64) : Grp := g.elementScalar f ops opMul
/-- `vmulVs` (R206). -/
def execVmulVs (f : FVS) (s : State) : Result := .next (issueVector (.vmulVs f) { reads := [f.sb] } s)

/-- `vminVs` at vector issue (R206). -/
def effVminVs (g : Grp) (f : FVS) (ops : List W64) : Grp := g.elementScalar f ops opMin
/-- `vminVs` (R206). -/
def execVminVs (f : FVS) (s : State) : Result := .next (issueVector (.vminVs f) { reads := [f.sb] } s)

/-- `vmaxVs` at vector issue (R206). -/
def effVmaxVs (g : Grp) (f : FVS) (ops : List W64) : Grp := g.elementScalar f ops opMax
/-- `vmaxVs` (R206). -/
def execVmaxVs (f : FVS) (s : State) : Result := .next (issueVector (.vmaxVs f) { reads := [f.sb] } s)

/-- `vandVs` at vector issue (R206). -/
def effVandVs (g : Grp) (f : FVS) (ops : List W64) : Grp := g.elementScalar f ops opAnd
/-- `vandVs` (R206). -/
def execVandVs (f : FVS) (s : State) : Result := .next (issueVector (.vandVs f) { reads := [f.sb] } s)

/-- `vorVs` at vector issue (R206). -/
def effVorVs (g : Grp) (f : FVS) (ops : List W64) : Grp := g.elementScalar f ops opOr
/-- `vorVs` (R206). -/
def execVorVs (f : FVS) (s : State) : Result := .next (issueVector (.vorVs f) { reads := [f.sb] } s)

/-- `vxorVs` at vector issue (R206). -/
def effVxorVs (g : Grp) (f : FVS) (ops : List W64) : Grp := g.elementScalar f ops opXor
/-- `vxorVs` (R206). -/
def execVxorVs (f : FVS) (s : State) : Result := .next (issueVector (.vxorVs f) { reads := [f.sb] } s)

/-- `vsllVs` at vector issue (R206). -/
def effVsllVs (g : Grp) (f : FVS) (ops : List W64) : Grp := g.elementScalar f ops opSll
/-- `vsllVs` (R206). -/
def execVsllVs (f : FVS) (s : State) : Result := .next (issueVector (.vsllVs f) { reads := [f.sb] } s)

/-- `vsrlVs` at vector issue (R206). -/
def effVsrlVs (g : Grp) (f : FVS) (ops : List W64) : Grp := g.elementScalar f ops opSrl
/-- `vsrlVs` (R206). -/
def execVsrlVs (f : FVS) (s : State) : Result := .next (issueVector (.vsrlVs f) { reads := [f.sb] } s)

/-- `vsraVs` at vector issue (R206). -/
def effVsraVs (g : Grp) (f : FVS) (ops : List W64) : Grp := g.elementScalar f ops opSra
/-- `vsraVs` (R206). -/
def execVsraVs (f : FVS) (s : State) : Result := .next (issueVector (.vsraVs f) { reads := [f.sb] } s)

/-- `vaddImm` at vector issue (R206). -/
def effVaddImm (g : Grp) (f : FV) (_ops : List W64) : Grp := g.elementImm f opAdd
/-- `vaddImm` (R206). -/
def execVaddImm (f : FV) (s : State) : Result := .next (issueVector (.vaddImm f) {} s)

/-- `vandImm` at vector issue (R206). -/
def effVandImm (g : Grp) (f : FV) (_ops : List W64) : Grp := g.elementImm f opAnd
/-- `vandImm` (R206). -/
def execVandImm (f : FV) (s : State) : Result := .next (issueVector (.vandImm f) {} s)

/-- `vsllImm` at vector issue (R206). -/
def effVsllImm (g : Grp) (f : FV) (_ops : List W64) : Grp := g.elementImm f opSll
/-- `vsllImm` (R206). -/
def execVsllImm (f : FV) (s : State) : Result := .next (issueVector (.vsllImm f) {} s)

/-- `vsrlImm` at vector issue (R206). -/
def effVsrlImm (g : Grp) (f : FV) (_ops : List W64) : Grp := g.elementImm f opSrl
/-- `vsrlImm` (R206). -/
def execVsrlImm (f : FV) (s : State) : Result := .next (issueVector (.vsrlImm f) {} s)

/-- `vsraImm` at vector issue (R206). -/
def effVsraImm (g : Grp) (f : FV) (_ops : List W64) : Grp := g.elementImm f opSra
/-- `vsraImm` (R206). -/
def execVsraImm (f : FV) (s : State) : Result := .next (issueVector (.vsraImm f) {} s)

/-- `vffma` at vector issue (R206). -/
def effVffma (g : Grp) (f : FV) (_ops : List W64) : Grp := g.elementFma f false false
/-- `vffma` (R206). -/
def execVffma (f : FV) (s : State) : Result := .next (issueVector (.vffma f) {} s)

/-- `vffms` at vector issue (R206). -/
def effVffms (g : Grp) (f : FV) (_ops : List W64) : Grp := g.elementFma f false true
/-- `vffms` (R206). -/
def execVffms (f : FV) (s : State) : Result := .next (issueVector (.vffms f) {} s)

/-- `vffnma` at vector issue (R206). -/
def effVffnma (g : Grp) (f : FV) (_ops : List W64) : Grp := g.elementFma f true true
/-- `vffnma` (R206). -/
def execVffnma (f : FV) (s : State) : Result := .next (issueVector (.vffnma f) {} s)

/-- `vffnms` at vector issue (R206). -/
def effVffnms (g : Grp) (f : FV) (_ops : List W64) : Grp := g.elementFma f true false
/-- `vffnms` (R206). -/
def execVffnms (f : FV) (s : State) : Result := .next (issueVector (.vffnms f) {} s)

/-- `vwadd` at vector issue (R206). -/
def effVwadd (g : Grp) (f : FV) (_ops : List W64) : Grp := g.elementWide f opWadd
/-- `vwadd` (R206). -/
def execVwadd (f : FV) (s : State) : Result := .next (issueVector (.vwadd f) {} s)

/-- `vwmul` at vector issue (R206). -/
def effVwmul (g : Grp) (f : FV) (_ops : List W64) : Grp := g.elementWide f opWmul
/-- `vwmul` (R206). -/
def execVwmul (f : FV) (s : State) : Result := .next (issueVector (.vwmul f) {} s)

/-- `vfexp2` at vector issue (R207, R208). -/
def effVfexp2 (g : Grp) (f : FV) (_ops : List W64) : Grp := g.elementApprox f approxExp2
/-- `vfexp2` (R207, R208). -/
def execVfexp2 (f : FV) (s : State) : Result := .next (issueVector (.vfexp2 f) {} s)

/-- `vflog2` at vector issue (R207, R208). -/
def effVflog2 (g : Grp) (f : FV) (_ops : List W64) : Grp := g.elementApprox f approxLog2
/-- `vflog2` (R207, R208). -/
def execVflog2 (f : FV) (s : State) : Result := .next (issueVector (.vflog2 f) {} s)

/-- `vfrcp` at vector issue (R207, R208). -/
def effVfrcp (g : Grp) (f : FV) (_ops : List W64) : Grp := g.elementApprox f approxRcp
/-- `vfrcp` (R207, R208). -/
def execVfrcp (f : FV) (s : State) : Result := .next (issueVector (.vfrcp f) {} s)

/-- `vfrsq` at vector issue (R207, R208). -/
def effVfrsq (g : Grp) (f : FV) (_ops : List W64) : Grp := g.elementApprox f approxRsq
/-- `vfrsq` (R207, R208). -/
def execVfrsq (f : FV) (s : State) : Result := .next (issueVector (.vfrsq f) {} s)

/-- `vftanh` at vector issue (R207, R208). -/
def effVftanh (g : Grp) (f : FV) (_ops : List W64) : Grp := g.elementApprox f approxTanh
/-- `vftanh` (R207, R208). -/
def execVftanh (f : FV) (s : State) : Result := .next (issueVector (.vftanh f) {} s)

/-- `vdot4` at vector issue (R209). -/
def effVdot4 (g : Grp) (f : FV) (_ops : List W64) : Grp := g.dot f 4 (intDot (f.view.sat = 1))
/-- `vdot4` (R209). -/
def execVdot4 (f : FV) (s : State) : Result := .next (issueVector (.vdot4 f) {} s)

/-- `vfdot2` at vector issue (R209). -/
def effVfdot2 (g : Grp) (f : FV) (_ops : List W64) : Grp := g.dot f 2 floatDot
/-- `vfdot2` (R209). -/
def execVfdot2 (f : FV) (s : State) : Result := .next (issueVector (.vfdot2 f) {} s)

/-- `vfdot4` at vector issue (R209). -/
def effVfdot4 (g : Grp) (f : FV) (_ops : List W64) : Grp := g.dot f 4 floatDot
/-- `vfdot4` (R209). -/
def execVfdot4 (f : FV) (s : State) : Result := .next (issueVector (.vfdot4 f) {} s)

end Sys2Proof.Machine
end

