-- ==== Sys2Proof/Machine/VecConv.lean ====
section
/-!
DEFINITION. Conversions (R189, R190), block scales (R183-R188) and bit planes (R175, R191-R193).
-/
namespace Sys2Proof.Machine

/-- A type code of a word with two: 0xF means VCONF.FMT (R69, R185, R189). -/
def Grp.codeOf (g : Grp) (code : Nat) : Nat := if code = 15 then g.fmt else code

/-- A type code has an integer type (R42). -/
def isIntCode (t : Nat) : Bool := decide (t < 8)

/-- A conversion of one element from type `s` to type `d` (R190); an identical pair copies (R189). -/
def convertElem (d s rm : Nat) (sat : Bool) (x : Nat) : Nat × Nat :=
  if s = 14 then (if x % 256 = 255 then ((floatFmt 8).nan, 0) else ((narrowFloat 8 1 false (readFloat 14 x)).1, 0))
  else if d = s then (x, 0)
  else if isIntCode s then
    (if isIntCode d then
      (if typeWidth d > typeWidth s then (ofInt (typeWidth d) (intValue s x), 0) else intResult d sat (intValue s x))
    else intToFloat d rm sat (intValue s x))
  else if isIntCode d then
    let (k, fl) := floatToInt rm (intRange d).1 (intRange d).2 (readFloat s x)
    (ofInt (typeWidth d) k, fl)
  else if typeWidth d > typeWidth s then widenFloat d s x
  else narrowFloat d rm sat (readFloat s x)

/-- A conversion word (R189, R190). -/
def Grp.convert (g : Grp) (f : FV) : Grp :=
  let v := f.view
  let d := g.codeOf v.ty
  let s := g.codeOf v.ty2
  g.loop v (typeWidth d) (fun e => convertElem d s (g.rmOf v) (v.sat = 1) (g.elem v.va (typeWidth s) e))

/-- The queue-exit checks of a conversion: the pair (R189), then the spans at both widths (R177). -/
def Grp.convertTrap (g : Grp) (fn : Nat) (f : FV) : Option TrapInfo :=
  let v := f.view
  let d := g.codeOf v.ty
  let s := g.codeOf v.ty2
  if !pairAccepted fn d s then some (illegal 7)
  else lowestTrap (g.spanTraps [⟨v.vd, typeWidth d, g.vl⟩, ⟨v.va, typeWidth s, g.vl⟩])

/-- emax of a quantised type (R184). -/
def emaxOf (q : Nat) : Int :=
  match q with
  | 11 => 8
  | 12 => 15
  | 13 => 2
  | _ => 6

/-- The scale of a block whose greatest magnitude is given (R184). -/
def blockScale (q : Nat) (x : FVal) : Nat :=
  match x with
  | .fin _ m e => if m = 0 then 0 else (max 0 (min (log2Floor m + e - emaxOf q + 127) 254)).toNat
  | _ => 0xFF

/-- The greater of two magnitudes; NaN and infinity are above all (R184). -/
def magMax (a b : FVal) : FVal :=
  match a.abs, b.abs with
  | .fin n m e, .fin k p q => if valueLt (.fin n m e) (.fin k p q) then .fin k p q else .fin n m e
  | .fin _ _ _, y => y
  | x, _ => x

/-- The byte of a scale register that holds the scale of element `e` of quantised register `reg` (R183). -/
def Grp.scaleIndex (g : Grp) (q reg e : Nat) : Nat :=
  let w := typeWidth q
  let n := 32 * g.regWords / w
  let b := g.blk
  let span := min 32 (b * w / 8)
  let r := reg + e / n
  (r - span * (r / span)) * (n / b) + e % n / b

/-- A byte of a scale register (R183). -/
def Grp.scaleByte (g : Grp) (vs q reg e : Nat) : Nat := g.elem vs 8 (g.scaleIndex q reg e)

/-- The blocks of `vqscale` with an active element, and the scale of each (R186). -/
def Grp.blockScales (g : Grp) (v : VView) (q t : Nat) : List (Nat × Nat) :=
  (upTo (ceilDiv g.vl g.blk)).filterMap (fun b =>
    let es := (upFrom (b * g.blk) g.blk).filter (fun e => g.active v.mreg e)
    if es = [] then none
    else
      let m := (es.filter (fun e => e < g.vtail)).foldl
        (fun m e => magMax m (readFloat t (g.elem v.va (typeWidth t) e))) (.fin false 0 0)
      some (b, blockScale q m))

/-- A value that has no finite magnitude. -/
def FVal.notFinite : FVal → Bool
  | .fin _ _ _ => false
  | _ => true

/-- `vqscale` at vector issue (R186). -/
def effVqscale (g : Grp) (f : FV) (_ops : List W64) : Grp :=
  let v := f.view
  let q := g.codeOf v.ty
  let t := g.codeOf v.ty2
  let x (e : Nat) : FVal := readFloat t (g.elem v.va (typeWidth t) e)
  let below := (g.activeList v.mreg).filter (fun e => e < g.vtail)
  let sc := g.blockScales v q t
  let h := sc.foldl (fun h p => h.setElem v.vd 8 (g.scaleIndex q (v.imm / 256 % 32) (p.1 * g.blk)) p.2) g
  let h := h.vectorFlags (if below.any (fun e => (x e).sig) then flNV else 0)
  h.putValid v (below.filter (fun e => (x e).notFinite))
/-- `vqscale` (R186). -/
def execVqscale (f : FV) (s : State) : Result := .next (issueVector (.vqscale f) {} s)

/-- A value times 2^k, exactly. -/
def FVal.scale (x : FVal) (k : Int) : FVal :=
  match x with
  | .fin n m e => .fin n m (e + k)
  | y => y

/-- `vqapply` of one element under scale byte `x` (R187). DESIGN CHOICE (log entry 35): the NaN of scale byte 0xFF is a quiet one, whatever
the element. -/
def quantElem (q t rm : Nat) (sat : Bool) (x a : Nat) : Nat × Nat :=
  let v := (readFloat t a).scale (127 - (x : Int))
  if x = 255 then (if q = 0 then (0, flNV) else narrowFloat q rm sat (.nan false))
  else if q = 0 then
    let (k, fl) := floatToInt rm (-128) 127 v
    (ofInt 8 k, fl)
  else narrowFloat q rm sat v

/-- `vqapply` at vector issue (R187). -/
def effVqapply (g : Grp) (f : FV) (_ops : List W64) : Grp :=
  let v := f.view
  let q := g.codeOf v.ty
  let t := g.codeOf v.ty2
  g.loop v (typeWidth q) (fun e =>
    if e ≥ g.vtail then (0, 0)
    else quantElem q t (g.rmOf v) (v.sat = 1) (g.scaleByte v.vb q v.vd e) (g.elem v.va (typeWidth t) e))
/-- `vqapply` (R187). -/
def execVqapply (f : FV) (s : State) : Result := .next (issueVector (.vqapply f) {} s)

/-- `vdqapply` of one element under scale byte `x` (R188). -/
def dequantElem (q t rm : Nat) (sat : Bool) (x a : Nat) : Nat × Nat :=
  let y : FVal :=
    if q = 0 then .fin (decide (toSigned 8 a < 0)) (toSigned 8 a).natAbs 0 else readFloat q a
  if x = 255 || y.isNan then ((floatFmt t).nan, 0) else narrowFloat t rm sat (y.scale ((x : Int) - 127))

/-- `vdqapply` at vector issue (R188). -/
def effVdqapply (g : Grp) (f : FV) (_ops : List W64) : Grp :=
  let v := f.view
  let q := g.codeOf v.ty
  let t := g.codeOf v.ty2
  g.loop v (typeWidth t) (fun e =>
    dequantElem q t (g.rmOf v) (v.sat = 1) (g.scaleByte v.vb q v.va e) (g.elem v.va (typeWidth q) e))
/-- `vdqapply` (R188). -/
def execVdqapply (f : FV) (s : State) : Result := .next (issueVector (.vdqapply f) {} s)

/-- The queue-exit checks of an 0x31 word (R177, R185): both types, then the spans of its operands; `quantised` and `wide`
are the registers at those widths and `scale` the scale register. -/
def Grp.quantTrap (g : Grp) (v : VView) (quantised wide : List Nat) (scale : Nat) : Option TrapInfo :=
  let q := g.codeOf v.ty
  let t := g.codeOf v.ty2
  if !quantTypes.contains q || !floatTypes.contains t then some (illegal 7)
  else lowestTrap (g.spanTraps (quantised.map (fun x => ⟨x, typeWidth q, g.vl⟩) ++ wide.map (fun x => ⟨x, typeWidth t, g.vl⟩))
    ++ [g.spanTrap scale 1])

/-- `vcvt` at vector issue (R190). -/
def effVcvt (g : Grp) (f : FV) (_ops : List W64) : Grp := g.convert f
/-- `vcvt` (R190). -/
def execVcvt (f : FV) (s : State) : Result := .next (issueVector (.vcvt f) {} s)
/-- `vwcvt` at vector issue (R190). -/
def effVwcvt (g : Grp) (f : FV) (_ops : List W64) : Grp := g.convert f
/-- `vwcvt` (R190). -/
def execVwcvt (f : FV) (s : State) : Result := .next (issueVector (.vwcvt f) {} s)
/-- `vncvt` at vector issue (R190). -/
def effVncvt (g : Grp) (f : FV) (_ops : List W64) : Grp := g.convert f
/-- `vncvt` (R190). -/
def execVncvt (f : FV) (s : State) : Result := .next (issueVector (.vncvt f) {} s)

/-- Registers that a plane group spans: k_p (R191). -/
def Grp.planeSpan (g : Grp) : Nat := powerAbove (ceilDiv 2048 (4 * g.regWords))

/-- Bit `u` of plane `p` of the plane group at register `x` (R175). -/
def Grp.planeBit (g : Grp) (x p u : Nat) : Bool :=
  bitOf (g.word x ((256 * p + u / 8) / 4)).toNat ((256 * p + u / 8) % 4 * 8 + u % 8)

/-- A write of bit `u` of plane `p` (R175). -/
def Grp.setPlaneBit (g : Grp) (x p u : Nat) (b : Bool) : Grp :=
  let k := (256 * p + u / 8) / 4
  let w := (g.word x k).toNat
  g.setWord x k (BitVec.ofNat 32 (setBitsOf w ((256 * p + u / 8) % 4 * 8 + u % 8) 1 (bit b)))

/-- The value of `k` planes at position `u` (R175). -/
def Grp.planeValue (g : Grp) (x k u : Nat) : Int :=
  let q := toSigned k (ofBits ((upTo k).map (fun i => g.planeBit x (k - 1 - i) u)))
  if k = 8 then q else q * 2 ^ (8 - k) + 2 ^ (7 - k)

/-- The position offset P = 8·POS (R191). -/
def planePos (v : VView) : Nat := 8 * (v.imm / 16 % 256)

/-- `vbpack` at vector issue (R192). -/
def effVbpack (g : Grp) (f : FV) (_ops : List W64) : Grp :=
  let v := f.view
  ((g.activeList v.mreg).filter (fun e => planePos v + e < 2048)).foldl (fun h e =>
    let b := if e < g.vtail then g.elem v.va 8 e else 0
    (upTo 8).foldl (fun h p => h.setPlaneBit v.vd p (planePos v + e) (bitOf b (7 - p))) h) g
/-- `vbpack` (R192). -/
def execVbpack (f : FV) (s : State) : Result := .next (issueVector (.vbpack f) {} s)

/-- `vbunpack` at vector issue (R193). -/
def effVbunpack (g : Grp) (f : FV) (_ops : List W64) : Grp :=
  let v := f.view
  g.putAll v.vd 8 ((g.activeList v.mreg).map (fun e =>
    (e, if e < g.vtail ∧ planePos v + e < 2048
        then ofInt 8 (g.planeValue v.va (v.imm / 4096 % 8 + 1) (planePos v + e)) else 0)))
/-- `vbunpack` (R193). -/
def execVbunpack (f : FV) (s : State) : Result := .next (issueVector (.vbunpack f) {} s)

/-- The queue-exit checks of a bit-plane word (R191): the type, then the spans of the i8 operand and of the plane group. -/
def Grp.planeTrap (g : Grp) (v : VView) (bytes planes : Nat) : Option TrapInfo :=
  if g.codeOf v.ty ≠ 0 then some (illegal 7)
  else lowestTrap (g.spanTraps [⟨bytes, 8, g.vl⟩] ++ [g.spanTrap planes g.planeSpan])

end Sys2Proof.Machine
end

