-- ==== Sys2Proof/Machine/Matrix.lean ====
section
/-!
DEFINITION. The cluster matrix engine (R249-R274): `mxmul`, `mxbp` and the pass of `rkacc` (R287-R290), the reservation table
and its arbiter, the tile fetch, and the words that move accumulator words.
-/
namespace Sys2Proof.Machine

/-- What a pass computes. -/
inductive PassKind where
  | mul | planes | rank
  deriving DecidableEq, Repr

/-- A word that takes a pass of the engine (R257, R287); `zero` says that it starts from nothing. -/
structure Pass where
  f : FX
  kind : PassKind
  zero : Bool := false
  deriving DecidableEq, Repr

/-- The words that take a pass. -/
def passOf : Instr → Option Pass
  | .mxmul f => some ⟨f, .mul, false⟩
  | .mxmulZ f => some ⟨f, .mul, true⟩
  | .mxbp f => some ⟨f, .planes, false⟩
  | .mxbpZ f => some ⟨f, .planes, true⟩
  | .rkacc f => some ⟨f, .rank, false⟩
  | _ => none

/-- Descriptor register `k` of the operand at field 0 SA, 1 SB, 2 SC (R252, R288). -/
def descWord (ops : List W64) (field k : Nat) : Nat := (ops.getD (3 * field + k) 0).toNat

/-- A signed 32-bit stride of a descriptor register. -/
def strideAt (x lo : Nat) : Int := toSigned 32 (bitsOf x lo 32)

/-- Width of an A element in bits. -/
def Pass.aw (p : Pass) : Nat := typeWidth p.f.afmt.toNat
/-- The pass is 2:4 sparse (R256). -/
def Pass.sparse (p : Pass) : Bool := decide (p.f.spar = 1)
/-- Layout KN (R253). -/
def Pass.kn (p : Pass) : Bool := decide (p.f.shape = 1)
/-- Stored values of an A row: 64 bytes of them (R253). -/
def Pass.stored (p : Pass) : Nat := 512 / p.aw
/-- Logical K (R253). -/
def Pass.k (p : Pass) : Nat := if p.sparse then 2 * p.stored else p.stored
/-- Planes of an `mxbp` (R257). -/
def Pass.planes (p : Pass) : Nat := (p.f.ext.extractLsb' 0 3).toNat + 1
/-- A scale descriptor is named (R252). -/
def Pass.scaled (p : Pass) : Bool := decide (p.f.sc ≠ 0)

/-- Rows of the pass: active and below VTAIL (R249). -/
def Pass.rows (p : Pass) (g : Grp) : List Nat := g.accessed p.f.mreg.toNat

/-- Some row is active (R260). -/
def Pass.live (p : Pass) (g : Grp) : Bool := decide (g.activeList p.f.mreg.toNat ≠ [])

/-- Descriptor fields that must be zero, or lie in their range (R252, R255, R288). -/
def Pass.badFields (p : Pass) (ops : List W64) : Bool :=
  let d := descWord ops
  match p.kind with
  | .rank =>
    let len := bitsOf (d 0 1) 32 16
    decide (bitsOf (d 0 1) 48 16 ≠ 0) || decide (bitsOf (d 0 2) 11 53 ≠ 0) || decide (bitsOf (d 1 1) 32 32 ≠ 0)
      || decide (bitsOf (d 1 2) 15 49 ≠ 0) || decide (len = 0) || decide (len > 64) || decide (bitsOf (d 1 2) 0 15 = 0)
      || decide (bitsOf (d 0 2) 0 11 + len > 2048)
  | k =>
    (!p.sparse && (decide (bitsOf (d 0 1) 32 32 ≠ 0) || decide (d 0 2 ≠ 0))) || decide (bitsOf (d 1 1) 32 32 ≠ 0)
      || decide (d 1 2 ≠ 0) || (decide (k = .planes) && decide (bitsOf (d 1 1) 0 32 ≠ 0))

/-- The first address or stride of a descriptor that is misaligned (R255, R288), by the address that it belongs to. -/
def Pass.misaligned (p : Pass) (ops : List W64) : Option W64 :=
  let d := descWord ops
  let bad (field k n : Nat) (stride : Nat) : Option W64 :=
    if d field k % n ≠ 0 ∨ stride % n ≠ 0 then some (BitVec.ofNat 64 (d field k)) else none
  let low (x : Nat) : Nat := bitsOf x 0 32
  let checks := match p.kind with
    | .rank => [bad 0 0 2 (low (d 0 1)), bad 1 0 32 (low (d 1 1))]
    | .planes => [bad 0 0 32 (low (d 0 1)), bad 1 0 2048 0]
    | .mul => [bad 0 0 32 (low (d 0 1)), bad 1 0 32 (low (d 1 1)),
        if p.sparse then bad 0 2 8 (bitsOf (d 0 1) 32 32) else none]
  checks.findSome? id

/-- The checks of a pass when it leaves the queue, but for its probe (R255, R260). -/
def Grp.passTrap (g : Grp) (p : Pass) (ops : List W64) : Option TrapInfo :=
  if g.vl > 128 then some (illegal 4)
  else if !p.live g then none
  else if p.badFields ops then some (illegal 0x0C)
  else (p.misaligned ops).map alignTrap

/-- A piece of an operand: its address, its bytes, and the width in bits of what is read at one moment in it (R265). -/
structure Piece where
  va : W64
  size : Nat
  grain : Nat
  deriving DecidableEq, Repr

/-- `n` pieces of one size in a row. -/
def piecesFrom (a : W64) (size grain n : Nat) : List Piece :=
  (upTo n).map (fun i => ⟨a + BitVec.ofNat 64 (size * i), size, grain⟩)

/-- The address `m` strides from a base, plus an offset. -/
def strided (base : Nat) (m : Nat) (stride : Int) (off : Nat) : W64 := BitVec.ofInt 64 (base + m * stride + off)

/-- Row `m` of A with its metadata and scales (R252, R256). -/
def Pass.rowPieces (p : Pass) (ops : List W64) (m : Nat) : List Piece :=
  let d := descWord ops
  piecesFrom (strided (d 0 0) m (strideAt (d 0 1) 0) 0) 32 p.aw 2
    ++ (if p.sparse then piecesFrom (strided (d 0 2) m (strideAt (d 0 1) 32) 0) 8 8 (p.stored / 32) else [])
    ++ (if p.scaled then piecesFrom (strided (d 2 0) m (strideAt (d 2 2) 0) 0) 1 8 (p.k / 32) else [])

/-- All of B with its scales (R252, R259). -/
def Pass.colPieces (p : Pass) (ops : List W64) : List Piece :=
  let d := descWord ops
  let rs := strideAt (d 1 1) 0
  match p.kind with
  | .planes => piecesFrom (BitVec.ofNat 64 (d 1 0)) 32 1 (8 * p.planes)
  | _ =>
    (if p.kn then ((upTo p.k).map (fun k => piecesFrom (strided (d 1 0) k rs 0) 32 p.aw (p.aw / 8))).flatten
     else ((upTo 32).map (fun n => piecesFrom (strided (d 1 0) n rs 0) 32 p.aw (p.k * p.aw / 256))).flatten)
    ++ (if p.scaled then
        ((upTo 32).map (fun n => piecesFrom (strided (d 2 1) n (strideAt (d 2 2) 32) 0) 1 8 (p.k / 32))).flatten else [])

/-- Entries per list of an `rkacc` (R288). -/
def lenOf (ops : List W64) : Nat := bitsOf (descWord ops 0 1) 32 16
/-- Weight rows of an `rkacc` (R288). -/
def nrows (ops : List W64) : Nat := bitsOf (descWord ops 1 2) 0 15
/-- Width of a weight in bits. -/
def Pass.bw (p : Pass) : Nat := typeWidth p.f.bfmt.toNat

/-- The weight row of index `i` (R288). -/
def Pass.weightPieces (p : Pass) (ops : List W64) (i : Nat) : List Piece :=
  piecesFrom (strided (descWord ops 1 0) i (strideAt (descWord ops 1 1) 0) 0) 32 p.bw (p.bw / 8)

/-- Index of a rank entry (R275). -/
def rankIndex (x : Nat) : Nat := x % 2 ^ 15
/-- The empty entry (R275). -/
def emptyEntry : Nat := 0x7FFF

/-- The entries before the first empty one (R275). -/
def beforeEmpty (es : List Nat) : List Nat := es.takeWhile (fun x => x ≠ emptyEntry)

/-- The list of row `m` that a probe has read (R289). -/
def listOf (reads : List (Nat × Nat × Nat)) (m : Nat) : List Nat :=
  beforeEmpty ((reads.filter (fun r => r.1 = m)).map (fun r => r.2.2))

/-- What a pass reads, element by element of the group in the order in which faults are looked for (R307): row m belongs to
element m, and B is read for the first row. -/
def Pass.pieces (p : Pass) (g : Grp) (ops : List W64) (reads : List (Nat × Nat × Nat)) : List (Nat × Piece) :=
  match p.kind with
  | .rank =>
    ((p.rows g).map (fun m => ((listOf reads m).filter (fun x => rankIndex x < nrows ops)).map (fun x =>
      (p.weightPieces ops (rankIndex x)).map (fun q => (m, q))))).flatten.flatten
  | _ =>
    match p.rows g with
    | [] => []
    | m :: rest =>
      (p.rowPieces ops m ++ p.colPieces ops).map (fun q => (m, q))
        ++ (rest.map (fun m => (p.rowPieces ops m).map (fun q => (m, q)))).flatten

/-- The probe of pieces in order, each page once (R306). -/
def probePieces (part : Nat) : State → Seen → List Access → List (Nat × Piece) → Probed
  | s, _, got, [] => .ok s got.reverse
  | s, seen, got, (e, q) :: rest =>
    match translateOnce s part q.va .read seen with
    | (.ok _ t, s, seen) => probePieces part s seen (⟨e, q.size, q.va, t⟩ :: got) rest
    | (.fault d, s, _) => .trap s { pageTrap d .read q.va with elem := e }
    | (.revoked l, s, _) => .trap s { leaseTrap l q.va with elem := e }
    | (.wait, s, _) => .wait s

/-- Every older write of the group has been performed (R267). -/
def Grp.writesDone (g : Grp) (id : Nat) : Bool :=
  g.stores.all (fun e => id ≤ e.id)
    && g.flights.all (fun f => id ≤ f.entry.id || !f.entry.writesGlobal)

/-- The next entry of the lists of an `rkacc` that its probe has not read: row and place (R289). -/
def nextListEntry (len : Nat) (reads : List (Nat × Nat × Nat)) : List Nat → Option (Nat × Nat)
  | [] => none
  | m :: rest =>
    let mine := reads.filter (fun r => r.1 = m)
    if mine.length ≥ len ∨ mine.any (fun r => r.2.2 = emptyEntry) then nextListEntry len reads rest
    else some (m, mine.length)

/-- The entry's queue with one of its words replaced. -/
def Grp.setEntry (g : Grp) (e : VEntry) : Grp :=
  { g with vq := g.vq.map (fun h => if h.id = e.id then e else h) }

/-- The probe of a pass (R255, R289): of an `rkacc`, one entry of its lists at a time, then the weight rows. None where it can do
nothing now. -/
def probePass (s : State) (tag : Nat) (g : Grp) (e : VEntry) (p : Pass) : Option State :=
  let finish : Option State :=
    match probePieces g.part s e.seen [] (p.pieces g e.ops e.reads) with
    | .ok s accs => some (s.setGrp tag (g.setEntry { e with probe := some accs }))
    | .trap s i => some (s.setGrp tag (g.setEntry { e with trap := some i }))
    | .wait s' => ifMoved s s'
  match (if p.kind = .rank then nextListEntry (lenOf e.ops) e.reads (p.rows g) else none) with
  | none => finish
  | some (m, r) =>
    if !g.writesDone e.id || g.acquireOlder e.id then none
    else
      let a := strided (descWord e.ops 0 0) m (strideAt (descWord e.ops 0 1) 0) (2 * r)
      let w := g.agent tag unitMatrix e.id e.pc e.hdr
      let trap (s : State) (i : TrapInfo) : Option State :=
        some (s.setGrp tag (g.setEntry { e with trap := some { i with elem := m } }))
      match translateOnce s g.part a .read e.seen with
      | (.fault d, s, _) => trap s (pageTrap d .read a)
      | (.revoked l, s, _) => trap s (leaseTrap l a)
      | (.wait, s', _) => ifMoved s s'
      | (.ok _ t, s1, seen) =>
        let note (s : State) (x : Nat) : Option State :=
          some (s.setGrp tag (g.setEntry { e with reads := e.reads ++ [(m, r, x)], seen := seen }))
        match readAt s1 w a 2 t with
        | .ok s x => s.ported g.core 1 (fun s => note s (g.accessRead s e.id { elem := m, size := 2, va := a, target := t } x))
        | .failed s => s.ported g.core 1 (fun s => note s (Config.unstated 6 [m, r] % 2 ^ 16))
        | .trap s i => trap s i
        | .wait s' => ifMoved s s'

/-- The request of a pass that a group has ready for the reservation table: the first pass in its queue that is not in the
table, where every word before it is a pass in the table (R261, R263). -/
def nextRequest (u : ClusterUnit) (tag : Nat) : List VEntry → Option VEntry
  | [] => none
  | e :: rest =>
    if (passOf e.instr).isNone then none
    else if u.table.any (fun t => t.gtag = tag && t.id = e.id) then nextRequest u tag rest
    else some e

/-- The request has passed its checks and its probe, and does some access (R260, R261). -/
def Grp.requestReady (g : Grp) (e : VEntry) : Bool :=
  e.probe.isSome && e.trap.isNone && (match passOf e.instr with | some p => p.live g | none => false)

/-- Effective priority (R262). -/
def MatrixEntry.effective (e : MatrixEntry) (cycle : Nat) : Nat := e.prio - min (cycle - e.entered) 32767 / 4096

/-- Arbiter order (R262): effective priority, entry cycle, core, slot; the tag orders core and slot. -/
def MatrixEntry.comesBefore (cycle : Nat) (a b : MatrixEntry) : Bool :=
  decide (a.effective cycle < b.effective cycle) || (decide (a.effective cycle = b.effective cycle)
    && (decide (a.entered < b.entered) || (decide (a.entered = b.entered) && decide (a.gtag < b.gtag))))

/-- Requests of a cluster that wait for an entry, as entries made now. -/
def waitingRequests (s : State) (c : Nat) : List MatrixEntry :=
  (s.groups.filter (fun p => clusterOf p.2.core = c)).filterMap (fun p =>
    (nextRequest (s.clusterAt c) p.1 p.2.vq).bind (fun e =>
      if p.2.requestReady e then some { gtag := p.1, id := e.id, prio := p.2.placePrio, entered := s.cycle } else none))

/-- A matrix request enters the table (R261): a freed entry goes to the waiting request that comes first. -/
def tryReservationEnter (s : State) (tag : Nat) : Option State := do
  let g ← s.grp tag
  let c := clusterOf g.core
  let u := s.clusterAt c
  let ws := waitingRequests s c
  let me ← ws.find? (fun w => w.gtag = tag)
  let free := 16 - u.table.length
  if (ws.filter (fun w => w.comesBefore s.cycle me)).length < free then some (s.setCluster c { u with table := u.table ++ [me] })
  else none

/-- RESERVATION_ENTER (R261). -/
def execReservationEnter (gtag : Nat) (s : State) : Result := eventResult s (tryReservationEnter s gtag)

/-- The entries that the arbiter may consider: each group's oldest that has no grant (R262). -/
def ClusterUnit.candidates (u : ClusterUnit) : List MatrixEntry :=
  (u.table.filter (fun e => u.granted.all (fun q => !(q.gtag = e.gtag ∧ q.id = e.id)))).filter (fun e =>
    !u.table.any (fun q => q.gtag = e.gtag && q.id < e.id && u.granted.all (fun r => !(r.gtag = q.gtag ∧ r.id = q.id))))

/-- The entry that comes first of a list. -/
def firstEntry (cycle : Nat) : List MatrixEntry → Option MatrixEntry
  | [] => none
  | e :: t => match firstEntry cycle t with
    | none => some e
    | some h => some (if h.comesBefore cycle e then h else e)

/-- The queue entry, or the granted flight, behind a table entry. -/
def Grp.behind (g : Grp) (id : Nat) : Option (VEntry × List Access) :=
  match g.flights.find? (fun f => f.entry.id = id) with
  | some f => some (f.entry, f.todo)
  | none => (g.vq.find? (fun e => e.id = id)).map (fun e => (e, e.probe.getD []))

/-- The lease of an access is not the device's to use any more: the tile fetch unit reports it with reason 6, and the access has failed
(R266, R374). -/
def failLeased (s : State) (w : Agent) (va : W64) (lease : Nat) : State :=
  let s := { s with fabric := { s.fabric with answers := s.fabric.answers ++ [(w.at va, none)] } }
  postEvent s { cause := 0x19, detail := 6, part := w.part, gtag := w.gtag, launch := w.launch % 2 ^ 32, pc := w.pc, hdr := w.hdr
                a0 := lenderOf s lease }

/-- The reads of operands that lie at a lender: those not asked for are asked for; the state, and whether all have an answer
(R264, R330). -/
def fetchLeased (w : Agent) : State → List Access → State × Bool
  | s, [] => (s, true)
  | s, a :: rest =>
    match resolve s a.target with
    | .leased l _ =>
      if !leaseUsable s l && !s.asked (w.at a.va) then fetchLeased w (failLeased s w a.va l) rest
      else
        (match readAt s w a.va a.size a.target with
         | .ok s _ | .failed s => fetchLeased w s rest
         | .trap s _ | .wait s => let r := fetchLeased w s rest; (r.1, false))
    | _ => fetchLeased w s rest

/-- The sectors that `n` bytes at a place lie in (R264). -/
def Place.sectors (n : Nat) : Place → List (Nat × Nat)
  | .at pa => (upFrom (pa / 32) (ceilDiv (pa % 32 + n) 32)).map (fun k => (0, k))
  | .leased l off => (upFrom (off / 32) (ceilDiv (off % 32 + n) 32)).map (fun k => (l + 1, k))
  | _ => []

/-- The L2 slice of a sector, within a die (R312). -/
def sliceOf (x : Nat × Nat) : Nat := x.2 % 4 + 4 * Nat.xor (x.2 / 4 % 16) (x.2 / 64 % 16)

/-- Sectors of 32 bytes that a slice may hold pinned: 128 KiB (R264). -/
abbrev pinLimit : Nat := 4096

/-- Sectors that other entries of a die's clusters pin. -/
def State.otherPins (s : State) (c : Nat) (e : MatrixEntry) : List (Nat × Nat) :=
  ((s.clusters.filter (fun p => p.1 / 32 = c / 32)).flatMap (fun p =>
    (p.2.table.filter (fun h => !(h.gtag = e.gtag ∧ h.id = e.id))).flatMap (fun h => h.pins))).dedup

/-- An entry may pin sectors: no slice of its die goes beyond its limit (R264). DESIGN CHOICE (log entry 36): an entry that alone needs
more of a slice than the limit may have it where no other entry pins there. -/
def State.pinRoom (s : State) (c : Nat) (e : MatrixEntry) (new : List (Nat × Nat)) : Bool :=
  let others := s.otherPins c e
  (upTo 64).all (fun k =>
    let there := others.filter (fun x => sliceOf x = k)
    let mine := new.filter (fun x => sliceOf x = k && !there.contains x)
    decide (mine.length + there.length ≤ pinLimit) || there.isEmpty)

/-- The sectors that the operands of an entry lie in now. -/
def State.sectorsOf (s : State) (accs : List Access) : List (Nat × Nat) :=
  (accs.flatMap (fun a => (resolve s a.target).sectors a.size)).dedup

/-- An operand lies in a unit that is being moved: it is fetched once the unit has moved (R266, R317). -/
def State.anyLocked (s : State) (accs : List Access) : Bool :=
  accs.any (fun a => match resolve s a.target with | .locked => true | _ => false)

/-- The tile fetch of one entry (R264, R267): done, or sending requests; none where it waits. -/
def fetchEntry (s : State) (c : Nat) (e : MatrixEntry) : Option State := do
  let g ← s.grp e.gtag
  let (q, accs) ← g.behind e.id
  if !g.writesDone e.id || g.acquireOlder e.id || s.anyLocked accs then none
  else
    let r := fetchLeased (g.agent e.gtag unitMatrix q.id q.pc q.hdr) s accs
    let pins := s.sectorsOf accs
    if !r.2 then ifMoved s r.1
    else if !s.pinRoom c e pins then none
    else
      r.1.ported g.core (pins.filter (fun x => !e.pins.contains x)).length fun s =>
      let u := s.clusterAt c
      some (s.setCluster c { u with table := u.table.map (fun h => if h = e then { h with ready := true, pins := pins } else h) })

/-- Fewer than four entries come before this one in arbiter order (R264). -/
def ClusterUnit.leading (u : ClusterUnit) (cycle : Nat) (e : MatrixEntry) : Bool :=
  decide ((u.table.filter (fun h => h.comesBefore cycle e)).length < 4)

/-- The tile fetch unit of a cluster pins the operands of a leading entry (R264). -/
def tryTileFetch (s : State) (c : Nat) : Option State :=
  let u := s.clusterAt c
  (u.table.filter (fun e => !e.ready && u.leading s.cycle e)).findSome? (fetchEntry s c)

/-- TILE_FETCH (R264). -/
def execTileFetch (cluster : Nat) (s : State) : Result := eventResult s (tryTileFetch s cluster)

/-- Cycles that a pass occupies the engine (R251, R290). -/
def Pass.cycles (p : Pass) (g : Grp) (ops : List W64) : Nat :=
  let b := ceilDiv g.vl 32
  match p.kind with
  | .mul => 16 * b
  | .planes => 2 * p.planes * b
  | .rank => 8 * b * ceilDiv (lenOf ops) 32

/-- The engine is free and a pass is granted: its request commits (R262, R263). The flight keeps its rows, and the monitors sample the
wait (R448). -/
def tryMatrixGrant (s : State) (c : Nat) : Option State :=
  let u := s.clusterAt c
  if u.granted.isSome then none
  else do
    let e ← firstEntry s.cycle (u.candidates.filter (fun e => e.ready))
    let g ← s.grp e.gtag
    let q ← g.vq.head?
    let p ← passOf q.instr
    let table := decide (p.kind = .rank) && g.flights.any (fun f => match f.entry.instr with | .ldattAtt _ => true | _ => false)
    if q.id ≠ e.id || table then none
    else
      let e' := { e with ends := s.cycle + p.cycles g q.ops }
      let fl : Flight :=
        { entry := q, phase := .matrix, todo := q.probe.getD [], got := (p.rows g).map (fun m => (m, 0)) }
      let g := { g with vq := g.vq.tail, flights := g.flights ++ [fl] }.freeUndo
      let u := { u with granted := some e', table := u.table.map (fun h => if h = e then e' else h) }
      some (sampleCore ((s.setGrp e.gtag g).setCluster c u) g.core 4 g.part (some (s.cycle - e.entered)))

/-- MATRIX_GRANT (R262). -/
def execMatrixGrant (cluster : Nat) (s : State) : Result := eventResult s (tryMatrixGrant s cluster)

/-- A value in which each element of `grain` bits is the one read last or one read early, as the device chooses (R265). -/
def mixGrains (grain : Nat) (early : List Nat) : Nat → State → Nat → Nat × State
  | 0, s, _ => (0, s)
  | n + 1, s, x =>
    let i := n * grain
    let (k, s) := s.choose (early.length + 1)
    let r := mixGrains grain early n s x
    (r.1 + bitsOf ((early[k]?).getD x) i grain * 2 ^ i, r.2)

/-- The values of a pass's operands, each piece once (R265), `seen` being what the word reads of an access (R380); none where one cannot
be read now. -/
def readPieces (w : Agent) (seen : State → Access → Nat → Nat) (early : List (Nat × Nat)) :
    State → Nat → List Access → List Nat → Option (State × List Nat)
  | s, _, [], _ => some (s, [])
  | s, n, a :: rest, grains =>
    let grain := grains.headD 8
    let take (s : State) (x : Nat) : Option (State × List Nat) :=
      let es := (early.filter (fun p => p.1 = n)).map Prod.snd
      let (x, s) := if es = [] then (x, s) else mixGrains grain es (8 * a.size / grain) s x
      (readPieces w seen early s (n + 1) rest grains.tail).map (fun r => (r.1, x :: r.2))
    match readAt s w a.va a.size a.target with
    | .ok s x => take s (seen s a x)
    | .failed s => take s (Config.unstated 7 [a.va.toNat, a.size])
    | _ => none

/-- Pieces one after another as one number, little-endian. -/
def joinPieces : List (Piece × Nat) → Nat
  | [] => 0
  | (q, x) :: t => x % 256 ^ q.size + 256 ^ q.size * joinPieces t

/-- The exact sum of finite values: +0 when it is zero, unless every one of them is −0 (R258). -/
def blockExact (ps : List FVal) : FVal :=
  let part (x : FVal) : Int × Int := match x with | .fin n m e => (signedOf n m, e) | _ => (0, 0)
  let e0 := (ps.map (fun x => (part x).2)).foldl min 0
  let t := (ps.map (fun x => (part x).1 * 2 ^ ((part x).2 - e0).toNat)).sum
  if t = 0 then .fin (ps.all (fun x => x.neg)) 0 0 else .fin (decide (t < 0)) t.natAbs e0

/-- The sum of a block's products under a scale 2^k, and its flags (R258, R290): `pairs` are the operands of each product. -/
def blockSum (noScale : Bool) (k : Int) (pairs : List (FVal × FVal)) : Nat × Nat :=
  let ps := pairs.map (fun p => productOf p.1 p.2)
  let isInf (n : Bool) (x : FVal) : Bool := match x with | .inf m => m = n | _ => false
  let both := ps.any (isInf false) && ps.any (isInf true)
  let invalid (p : FVal × FVal) : Bool :=
    p.1.sig || p.2.sig || (!p.1.isNan && !p.2.isNan && (productOf p.1 p.2).isNan)
  let nv := if pairs.any invalid || both then flNV else 0
  if noScale || ps.any FVal.isNan || both then ((floatFmt 8).nan, nv)
  else if ps.any (isInf false) then (infinity (floatFmt 8) false, nv)
  else if ps.any (isInf true) then (infinity (floatFmt 8) true, nv)
  else
    let r := narrowFloat 8 1 false ((blockExact ps).scale k)
    (r.1, Nat.lor nv r.2)

/-- A product's A value and logical position, of stored value `j` (R256). -/
def Pass.storedAt (p : Pass) (row j : Nat) : Nat × Nat :=
  let a := bitsOf row (j * p.aw) p.aw
  if p.sparse then
    let nib := bitsOf row (512 + 4 * (j / 2)) 4
    (a, 4 * (j / 2) + (if j % 2 = 0 then nib % 4 else nib / 4))
  else (a, j)

/-- B element (k, n) of the columns (R252). -/
def Pass.colAt (p : Pass) (cols k n : Nat) : Nat :=
  bitsOf cols ((if p.kn then 32 * k + n else n * p.k + k) * p.aw) p.aw

/-- The scale byte of block `b` of a row of A; 127 without a scale descriptor (R258). -/
def Pass.rowScale (p : Pass) (row b : Nat) : Nat :=
  if p.scaled then bitsOf row (512 + (if p.sparse then 64 * (p.stored / 32) else 0) + 8 * b) 8 else 127
/-- The scale byte of block `b` of column `n` of B (R258). -/
def Pass.colScale (p : Pass) (cols n b : Nat) : Nat :=
  if p.scaled then bitsOf cols (32 * p.k * p.aw + 8 * (n * (p.k / 32) + b)) 8 else 127

/-- The sum of block `b` of row `row` and column `n` (R258). -/
def Pass.block (p : Pass) (row cols n b : Nat) : Nat × Nat :=
  let per := p.stored / (p.k / 32)
  let pairs := (upFrom (per * b) per).map (fun j =>
    let x := p.storedAt row j
    (readFloat p.f.afmt.toNat x.1, readFloat p.f.bfmt.toNat (p.colAt cols x.2 n)))
  let xa := p.rowScale row b
  let xb := p.colScale cols n b
  blockSum (decide (xa = 255) || decide (xb = 255)) (xa + xb - 254) pairs

/-- Blocks added one after another to an accumulator word, with the flags (R258, R290). -/
def addBlocks : Nat → Nat → List (Nat × Nat) → Nat × Nat
  | c, fl, [] => (c, fl)
  | c, fl, (x, xf) :: rest =>
    let r := floatAdd 8 1 (readFloat 8 c) (readFloat 8 x)
    addBlocks r.1 (Nat.lor fl (Nat.lor xf r.2)) rest

/-- One word of the result of a `mxmul` (R258). -/
def Pass.mulWord (p : Pass) (c row cols n : Nat) : Nat × Nat :=
  if isIntCode p.f.afmt.toNat then
    let t := ((upTo p.stored).map (fun j =>
      let x := p.storedAt row j
      intValue p.f.afmt.toNat x.1 * intValue p.f.bfmt.toNat (p.colAt cols x.2 n))).sum
    (ofInt 32 (c + t), 0)
  else addBlocks c 0 ((upTo (p.k / 32)).map (fun b => p.block row cols n b))

/-- The value of the first `k` planes at position `u` (R175, R259). -/
def planeAt (cols k u : Nat) : Int :=
  let q := toSigned k (ofBits ((upTo k).map (fun i => bitOf cols (2048 * (k - 1 - i) + u))))
  if k = 8 then q else q * 2 ^ (8 - k) + 2 ^ (7 - k)

/-- One word of the result of a `mxbp` (R259). -/
def Pass.planeWord (p : Pass) (c row cols n : Nat) : Nat :=
  let t := ((upTo 64).map (fun k =>
    intValue p.f.afmt.toNat (bitsOf row (8 * k) 8) * planeAt cols p.planes (64 * n + k))).sum
  ofInt 32 (c + t)

/-- The products of a block of an `rkacc`: `ws` gives the weight row of each entry that has one (R290). -/
def rankBlock (p : Pass) (att : Nat → Nat) (rkoff nrow n : Nat) :
    Nat → List Nat → List Nat → List (Nat × FVal × FVal)
  | _, [], _ => []
  | r, x :: es, ws =>
    if rankIndex x < nrow then
      let a := readFloat 9 (att (rkoff + r))
      (r, if bitOf x 15 then a.negate else a, readFloat p.f.bfmt.toNat (bitsOf (ws.headD 0) (n * p.bw) p.bw))
        :: rankBlock p att rkoff nrow n (r + 1) es ws.tail
    else rankBlock p att rkoff nrow n (r + 1) es ws

/-- One word of the result of an `rkacc` (R290): the row's entries and the weight rows of those below NROWS. -/
def rankWord (p : Pass) (att : Nat → Nat) (ops : List W64) (c n : Nat) (es ws : List Nat) : Nat × Nat :=
  let prods := rankBlock p att (bitsOf (descWord ops 0 2) 0 11) (nrows ops) n 0 es ws
  addBlocks c 0 ((upTo (ceilDiv (lenOf ops) 32)).filterMap (fun b =>
    let ps := (prods.filter (fun q => q.1 / 32 = b)).map Prod.snd
    if ps = [] then none else some (blockSum false 0 ps)))

/-- One row of a pass written: each word computed from its accumulator word. -/
def Grp.writeRow (g : Grp) (acc m : Nat) (zero : Option Nat) (word : Nat → Nat → Nat × Nat) : Grp × Nat :=
  (upTo 32).foldl (fun (h : Grp × Nat) n =>
    let r := word (zero.getD (g.tile acc m n)) n
    (h.1.setTile acc m n r.1, Nat.lor h.2 r.2)) (g, 0)

/-- The rows of a `mxmul` or `mxbp`, with the numbers of their A rows and of B. -/
def Grp.passRows (g : Grp) (p : Pass) (cols : Nat) : List (Nat × Nat) → Grp × Nat
  | [] => (g, 0)
  | (m, row) :: rest =>
    let init := if p.zero then some (if p.kind = .mul ∧ !isIntCode p.f.afmt.toNat then 2 ^ 31 else 0) else none
    let r := g.writeRow p.f.acc.toNat m init (fun c n =>
      if p.kind = .planes then (p.planeWord c row cols n, 0) else p.mulWord c row cols n)
    let q := r.1.passRows p cols rest
    (q.1, Nat.lor r.2 q.2)

/-- A list cut into the runs of the lengths given. -/
def cutInto {α : Type} : List Nat → List α → List (List α)
  | [], _ => []
  | n :: ns, xs => xs.take n :: cutInto ns (xs.drop n)

/-- The rows of an `rkacc`: each with its list, and the values of its weight rows. -/
def Grp.rankRows (g : Grp) (p : Pass) (ops : List W64) : List (Nat × List Nat × List Nat) → Grp × Nat
  | [] => (g, 0)
  | (m, es, ws) :: rest =>
    let att (i : Nat) : Nat := (FMap.get tableReset g.att i).toNat
    let r := g.writeRow p.f.acc.toNat m none (fun c n => rankWord p att ops c n es ws)
    let stray := if es.any (fun x => rankIndex x ≥ nrows ops) then flNV else 0
    let q := r.1.rankRows p ops rest
    (q.1, Nat.lor (Nat.lor r.2 stray) q.2)

/-- The effect of a pass on its group, from the values of its pieces (R249, R258, R259, R290), and its flags. -/
def Grp.runPass (g : Grp) (p : Pass) (ops : List W64) (reads : List (Nat × Nat × Nat)) (rows : List Nat)
    (vals : List (Piece × Nat)) : Grp × Nat :=
  match p.kind with
  | .rank =>
    let per (m : Nat) : List Nat := listOf reads m
    let hits (m : Nat) : Nat := ((per m).filter (fun x => rankIndex x < nrows ops)).length
    let parts := cutInto (rows.map (fun m => hits m * (p.bw / 8))) vals
    let ws (part : List (Piece × Nat)) (n : Nat) : List Nat :=
      (cutInto (List.replicate n (p.bw / 8)) part).map joinPieces
    g.rankRows p ops ((rows.zip parts).map (fun q => (q.1, per q.1, ws q.2 (hits q.1))))
  | _ =>
    match rows with
    | [] => (g, 0)
    | m :: rest =>
      let n := (p.rowPieces ops m).length
      let k := (p.colPieces ops).length
      let first := joinPieces (vals.take n)
      let cols := joinPieces ((vals.drop n).take k)
      let others := (cutInto (rest.map (fun _ => n)) (vals.drop (n + k))).map joinPieces
      g.passRows p cols ((m, first) :: rest.zip others)

/-- The pieces that a granted pass reads, in the order of its accesses; its rows are those of its grant. -/
def Pass.grantedPieces (p : Pass) (ops : List W64) (reads : List (Nat × Nat × Nat)) (rows : List Nat) : List Piece :=
  match p.kind with
  | .rank =>
    (rows.map (fun m => ((listOf reads m).filter (fun x => rankIndex x < nrows ops)).map (fun x =>
      p.weightPieces ops (rankIndex x)))).flatten.flatten
  | _ =>
    match rows with
    | [] => []
    | m :: rest => p.rowPieces ops m ++ p.colPieces ops ++ (rest.map (fun m => p.rowPieces ops m)).flatten

/-- The pass on the engine ends (R251): its rows are written, its flags go to XFLAGS, MX returns, its flag falls, and its entry
frees (R258, R261). -/
def tryMatrixPassEnd (s : State) (c : Nat) : Option State := do
  let u := s.clusterAt c
  let e ← u.granted
  let free (s : State) : State :=
    let u := s.clusterAt c
    s.setCluster c { u with granted := none, table := u.table.filter (fun h => !(h.gtag = e.gtag ∧ h.id = e.id)) }
  if s.cycle < e.ends then none
  else
    match s.grp e.gtag with
    | none => some (free s)
    | some g =>
      match g.flights.find? (fun f => f.entry.id = e.id && f.phase = .matrix) with
      | none => some (free s)
      | some fl => do
        let p ← passOf fl.entry.instr
        let q := fl.entry
        let rows := fl.got.map Prod.fst
        let pieces := p.grantedPieces q.ops q.reads rows
        let w := g.agent e.gtag unitMatrix q.id q.pc q.hdr
        let (s, xs) ← readPieces w (fun s => g.accessRead s q.id) e.early s 0 fl.todo (pieces.map (fun x => x.grain))
        let r := g.runPass p q.ops q.reads rows (pieces.zip xs)
        let g := (r.1.vectorFlags r.2).complete q
        some ((free (s.setGrp e.gtag g)).forget w)

/-- MATRIX_PASS_END (R251). -/
def execMatrixPassEnd (cluster : Nat) (s : State) : Result := eventResult s (tryMatrixPassEnd s cluster)

/-- One piece of a request's operands read early, by a turn of the agenda (R265, log entry 1): of an entry whose operands the tile fetch
unit has pinned, or for which it reads; then it pins the sectors of the piece (R264). -/
def earlyPiece (s : State) (tag id nth : Nat) : Option State := do
  let g ← s.grp tag
  let c := clusterOf g.core
  let u := s.clusterAt c
  let e ← u.table.find? (fun e => e.gtag = tag && e.id = id)
  let (q, accs) ← g.behind id
  let a ← accs[nth]?
  if !g.writesDone id || g.acquireOlder id || !(e.ready || u.leading s.cycle e) then none
  else
    let pins := (e.pins ++ s.sectorsOf [a]).dedup
    match readAt s (g.agent tag unitMatrix q.id q.pc q.hdr) a.va a.size a.target with
    | .ok s x =>
      if !s.pinRoom c e pins then none
      else
        s.ported g.core (pins.length - e.pins.length) fun s =>
        let e' := { e with early := (nth, g.accessRead s q.id a x) :: e.early, pins := pins }
        some (s.setCluster c { u with
          table := u.table.map (fun h => if h = e then e' else h)
          granted := u.granted.map (fun h => if h.gtag = tag ∧ h.id = id then e' else h) })
    | _ => none

/-- An older pass of the group on this tile has not ended (R268). -/
def Grp.tileBusy (g : Grp) (id acc : Nat) : Bool :=
  g.flights.any (fun f => f.entry.id < id && f.phase = .matrix &&
    (match passOf f.entry.instr with | some p => decide (p.f.acc.toNat = acc) | none => false))

/-- The result of `mxext` for an accumulator word under a scale byte (R272). -/
def extScaled (dty sty rm : Nat) (sat : Bool) (x a : Nat) : Nat × Nat :=
  let v : FVal :=
    if sty = 2 then .fin (decide (toSigned 32 a < 0)) (toSigned 32 a).natAbs 0 else readFloat 8 a
  if x = 255 then (if dty = 0 then (0, flNV) else narrowFloat dty rm sat (.nan false))
  else if dty = 0 then
    let (k, fl) := floatToInt rm (-128) 127 (v.scale (127 - (x : Int)))
    (ofInt 8 k, fl)
  else narrowFloat dty rm sat (v.scale (127 - (x : Int)))

/-- The result of `mxext` for an accumulator word without a scale (R190, R272): an f32 word is narrowed to f32 too. -/
def extPlain (dty sty rm : Nat) (sat : Bool) (a : Nat) : Nat × Nat :=
  if dty = 8 ∧ sty = 8 then narrowFloat 8 rm sat (readFloat 8 a) else convertElem dty sty rm sat a

/-- `mxext` at vector issue (R272). -/
def effMxext (g : Grp) (f : FX) (_ops : List W64) : Grp :=
  let dty := f.afmt.toNat
  let sty := f.bfmt.toNat
  let rm := roundMode f.rm g.vdrm
  let rs := (g.activeList f.mreg.toNat).map (fun e =>
    let a := g.tile f.acc.toNat e f.shape.toNat
    (e, if f.scl then extScaled dty sty rm f.sat (g.scaleByte f.vs dty f.reg e) a else extPlain dty sty rm f.sat a))
  (g.putAll f.reg (typeWidth dty) (rs.map (fun r => (r.1, r.2.1)))).vectorFlags
    (unionFlags g.vtail (rs.map (fun r => (r.1, r.2.2))))

/-- `mxmov.in` at vector issue (R274). -/
def effMxmovIn (g : Grp) (f : FX) (_ops : List W64) : Grp :=
  (g.activeList f.mreg.toNat).foldl (fun h e => h.setTile f.acc.toNat e f.shape.toNat (g.elem f.reg 32 e)) g

/-- `mxmov.out` at vector issue (R274). -/
def effMxmovOut (g : Grp) (f : FX) (_ops : List W64) : Grp :=
  g.putAll f.reg 32 ((g.activeList f.mreg.toNat).map (fun e => (e, g.tile f.acc.toNat e f.shape.toNat)))

/-- `mxclr` at vector issue (R274): every word of the tile, whatever VL and the masks. -/
def effMxclr (g : Grp) (f : FX) (_ops : List W64) : Grp :=
  { g with acc := g.acc.filter (fun p => p.1 / 4096 ≠ f.acc.toNat) }

/-- The queue-exit checks of `mxext` and of the moves (R271, R273). -/
def Grp.tileTrap (g : Grp) (x w : Nat) : Option TrapInfo :=
  firstTrap [g.spanTrap x (g.span w g.vl), if g.vl > 128 then some (illegal 4) else none]

/-- A pass enters the queue (R139, R252). -/
def issuePass (i : Instr) (f : FX) (s : State) : Result :=
  .next (issueVector i { reads := specRegs f.sa ++ specRegs f.sb ++ specRegs f.sc, cf := f.cf, path := some .mx } s)

/-- `mxmul` (R257, R258). -/
def execMxmul (f : FX) (s : State) : Result := issuePass (.mxmul f) f s
/-- `mxmul.z` (R257, R258). -/
def execMxmulZ (f : FX) (s : State) : Result := issuePass (.mxmulZ f) f s
/-- `mxbp` (R257, R259). -/
def execMxbp (f : FX) (s : State) : Result := issuePass (.mxbp f) f s
/-- `mxbp.z` (R257, R259). -/
def execMxbpZ (f : FX) (s : State) : Result := issuePass (.mxbpZ f) f s
/-- `rkacc` (R287, R290). -/
def execRkacc (f : FX) (s : State) : Result := issuePass (.rkacc f) f s
/-- `mxext` (R271, R272). -/
def execMxext (f : FX) (s : State) : Result := .next (issueVector (.mxext f) { cf := f.cf, path := some .mx } s)
/-- `mxmov.in` (R273, R274). -/
def execMxmovIn (f : FX) (s : State) : Result := .next (issueVector (.mxmovIn f) {} s)
/-- `mxmov.out` (R273, R274). -/
def execMxmovOut (f : FX) (s : State) : Result := .next (issueVector (.mxmovOut f) {} s)
/-- `mxclr` (R273, R274). -/
def execMxclr (f : FX) (s : State) : Result := .next (issueVector (.mxclr f) {} s)

end Sys2Proof.Machine
end

