-- ==== Sys2Proof/Machine/Copy.lean ====
section
/-!
DEFINITION. The copy engine (R343-R350, R114): posting, the descriptor, the moving of bytes, failures and triggered copies.
-/
namespace Sys2Proof.Machine

/-- The words that post a copy (R343): whether it is a `tcopy`. -/
def copyWord : Instr → Option (Bool × FC)
  | .copy f => some (false, f)
  | .tcopy f => some (true, f)
  | _ => none

/-- A copy counts against its queue: posted, in its queue's order, and not at its end (R347). -/
def CopyJob.queued (j : CopyJob) : Bool := j.trigger.isNone && !j.closed
/-- An armed copy, or one that will arm (R350). -/
def CopyJob.armed (j : CopyJob) : Bool := j.trigger.isSome && !j.closed

/-- Room for one more copy in a queue of a core (R347). -/
def CoreUnit.queueRoom (u : CoreUnit) (q : Nat) : Bool :=
  decide ((u.copies.filter (fun j => j.queued && j.queue = q)).length < 32)
/-- Room for one more armed copy (R350). -/
def CoreUnit.armRoom (u : CoreUnit) : Bool := decide ((u.copies.filter CopyJob.armed).length < 64)

/-- The post that a word makes (R343, R346). -/
def jobOf (tag : Nat) (g : Grp) (e : VEntry) (triggered : Bool) (f : FC) : CopyJob :=
  { launch := g.launch, ordinal := g.ordinal, gtag := tag, part := g.part, pc := e.pc, hdr := e.hdr, id := e.id
    queue := f.q.toNat, desc := e.ops.getD 0 0, counter := e.ops.getD 1 0, feed := !triggered && f.ext.getLsbD 0
    release := decide (f.ord = 2), flags := e.flags, cps := e.cps, spadBase := g.spadBase, spad := g.spad
    trigger := if triggered then
        some (e.ops.getD 2 0 + BitVec.ofNat 64 (8 * f.tcid.toNat), (e.ops.getD 3 0).toNat) else none }

/-- The commit of a copy posts it (R346); none where its queue, or the armed copies, are full (R347, R350). -/
def postCopy (s : State) (tag : Nat) (g : Grp) (e : VEntry) : Option State := do
  let (triggered, f) ← copyWord e.instr
  let u := s.coreAt g.core
  if !(if triggered then u.armRoom else u.queueRoom f.q.toNat) then none
  else
    let fl : Flight := { entry := e, phase := .post }
    let g := ({ g with vq := g.vq.tail, flights := g.flights ++ [fl] }.afterOrd f.ord.toNat).freeUndo
    some ((s.setCore g.core { u with copies := u.copies ++ [jobOf tag g e triggered f] }).setGrp tag g)

/-- Two posts are one. -/
def CopyJob.same (a b : CopyJob) : Bool := a.launch = b.launch && a.ordinal = b.ordinal && a.id = b.id

/-- A post of a core replaced. -/
def State.setJob (s : State) (c : Nat) (j : CopyJob) : State :=
  let u := s.coreAt c
  s.setCore c { u with copies := u.copies.map (fun h => if h.same j then j else h) }

/-- The agent of a copy's accesses, of a kind. -/
def CopyJob.agent (j : CopyJob) (unit : Nat) : Agent :=
  { unit := unit, a := j.launch * 2 ^ 32 + j.ordinal, b := j.id, part := j.part, launch := j.launch, gtag := j.gtag, pc := j.pc
    hdr := j.hdr }

/-- The group that posted a copy, where it is resident. -/
def posterOf (s : State) (launch ordinal : Nat) : Option (Nat × Grp) :=
  List.find? (fun p => p.2.launch = launch ∧ p.2.ordinal = ordinal) s.groups

/-- Where a save area holds the CP counter (R431). -/
abbrev areaCp : Nat := 0xB6

/-- CP returns to the group that posted, wherever it is (R346): a saved group's counter falls in its save area. -/
def returnCp (s : State) (j : CopyJob) : State :=
  match posterOf s j.launch j.ordinal with
  | some (tag, g) => s.setGrp tag (g.lower .cp j.id)
  | none =>
    match s.saved.find? (fun v => v.launch = j.launch && v.ordinal = j.ordinal) with
    | none => s
    | some v =>
      let mark (c : Counted) : Counted := if c.path = .cp ∧ c.id = j.id then { c with returned := true } else c
      let v' := { v with counted := dropReturned .cp (v.counted.map mark) }
      { s with
        saved := s.saved.replace v v', mem := Memory.writeNat s.mem (v.area + areaCp) 2 v'.counted.length }

/-- The post is accepted (R346): its flag falls, and its word has completed as R168 counts it. -/
def acceptPost (s : State) (j : CopyJob) : State :=
  match posterOf s j.launch j.ordinal with
  | none => s
  | some (tag, g) =>
    s.setGrp tag { g.lowerFlags j.flags with flights := g.flights.filter (fun f => f.entry.id ≠ j.id) }

/-- A descriptor's fields (R344). -/
def copyDesc (ds : List W64) : CopyDesc :=
  let d (k : Nat) : Nat := (ds.getD k 0).toNat
  { src := ds.getD 0 0, dst := ds.getD 1 0, len0 := bitsOf (d 2) 0 32, cnt1 := bitsOf (d 2) 32 32, cnt2 := bitsOf (d 3) 0 32
    dsp := bitOf (d 3) 35, ssp := bitOf (d 3) 34, dim := bitsOf (d 3) 32 2, sstr1 := toSigned 64 (d 4)
    sstr2 := toSigned 64 (d 5), dstr1 := toSigned 64 (d 6), dstr2 := toSigned 64 (d 7) }

/-- A scratchpad range lies wholly in the group's allocation (R344): its corner rows do. -/
def CopyJob.inSpad (j : CopyJob) (d : CopyDesc) (base : W64) (s1 s2 : Int) : Bool :=
  [(0 : Int), (d.cnt1 : Int) - 1].all (fun a => [(0 : Int), (d.cnt2 : Int) - 1].all (fun b =>
    let at_ : Int := base.toNat + a * s1 + b * s2
    decide ((j.spadBase : Int) ≤ at_) && decide (at_ + d.len0 ≤ j.spadBase + j.spad * 4096)))

/-- A descriptor breaks R344. -/
def CopyJob.badDesc (j : CopyJob) (ds : List W64) : Bool :=
  let d := copyDesc ds
  decide (d.len0 = 0 ∨ d.len0 > 2 ^ 24 ∨ d.cnt1 = 0 ∨ d.cnt1 > 65536 ∨ d.cnt2 = 0 ∨ d.cnt2 > 65536)
    || decide (bitsOf (ds.getD 3 0).toNat 36 28 ≠ 0) || decide (d.dim = 0)
    || (decide (d.dim = 1) && decide (d.cnt1 ≠ 1 ∨ d.cnt2 ≠ 1 ∨ d.sstr1 ≠ 0 ∨ d.dstr1 ≠ 0))
    || (decide (d.dim ≤ 2) && decide (d.cnt2 ≠ 1 ∨ d.sstr2 ≠ 0 ∨ d.dstr2 ≠ 0))
    || (d.ssp && !j.inSpad d d.src d.sstr1 d.sstr2) || (d.dsp && !j.inSpad d d.dst d.dstr1 d.dstr2)
    || (j.feed && (decide (d.dim ≠ 1) || d.dsp))

/-- A copy ends (R346, R348): its counter is raised, with ERR on a failure, whose event is posted; CP returns. None where the
counter's address waits for the host. -/
def closeCopy (s : State) (c : Nat) (j : CopyJob) : Option State :=
  let w := j.agent unitCounter
  match raiseCounter s w j.counter j.failed.isSome (counterFault w (j.failed.getD 0)) with
  | .wait s' => ifMoved s s'
  | .done s =>
    let s := match j.failed with
      | some cause =>
        postEvent s { counterFault w 0 with cause := cause, detail := j.failDetail, addr := j.failAddr, a0 := j.queue, a1 := j.desc.toNat }
      | none => s
    let s := returnCp s j
    let j := { j with closed := true, done := j.failed.isNone, trigger := none }
    if j.feed then some (s.setJob c j)
    else
      let u := s.coreAt c
      some (s.setCore c { u with copies := u.copies.filter (fun h => !h.same j) })

/-- A copy that has failed, with its cause and address. -/
def CopyJob.fail (j : CopyJob) (cause : Nat) (a : W64) : CopyJob := { j with failed := some cause, failAddr := a }

/-- A copy fails or has moved its last byte, and stays so while the raise of its counter waits: it ends at once where that does not. -/
def endCopy (s : State) (c : Nat) (j : CopyJob) : State := (closeCopy (s.setJob c j) c j).getD (s.setJob c j)

/-- What an event says of an access that ended in a trap: reason 6 for a lease that is not the device's to use (R374). -/
def faultReason (i : TrapInfo) : Nat := if i.cause = 0x08 then 6 else 0

/-- The same of accesses of an agent that a lender has failed: reason 6 where it no longer lends (R371, R374). -/
def State.failReason (s : State) (w : Agent) : Nat :=
  if s.fabric.lapsed.any w.made then 6 else 0

/-- The answers of an agent to the requests of one line of 128 bytes are forgotten. -/
def State.forgetLine (s : State) (w : Agent) (line : W64) : State :=
  s.forgetAll (fun p => (upTo 128).any (fun o => p = w.at (line + BitVec.ofNat 64 o)))

/-- How the reading of a trigger counter ends (R114). -/
inductive TriggerRead where
  | met (s : State)
  | unmet (s : State)
  /-- ERR, or unreadable (R348), with the reason that its event gives -/
  | failed (s : State) (reason : Nat)
  | wait (s : State)

/-- The trigger counter read against its threshold (R114, R350). DESIGN CHOICE (log entry 35): one whose address is no multiple of 8 is
unreadable. -/
def readTrigger (s : State) (j : CopyJob) (a : W64) (threshold : Nat) : TriggerRead :=
  let w := j.agent unitTrigger
  if a.toNat % 8 ≠ 0 then .failed s 0
  else
    match readVa s w a 8 with
    | .ok s x =>
      let s := s.forget w
      if bitOf x 63 then .failed s 0 else if threshold ≤ bitsOf x 0 63 then .met s else .unmet s
    | .failed s => .failed (s.forget w) (s.failReason w)
    | .trap s i => .failed s (faultReason i)
    | .wait s => .wait s

/-- A copy that fires joins the tail of its queue (R350). -/
def fireCopy (s : State) (c : Nat) (j : CopyJob) : State :=
  let u := s.coreAt c
  s.setCore c { u with copies := u.copies.filter (fun h => !h.same j) ++ [{ j with trigger := none }] }

/-- A copy whose trigger has been read as met (R114): it fires, or does so once its queue has room, whatever the counter comes to. -/
def triggerMet (s : State) (c : Nat) (j : CopyJob) : State :=
  if (s.coreAt c).queueRoom j.queue then fireCopy s c j else s.setJob c { j with met := true }

/-- What becomes of an armed copy whose trigger has been read: it fires once its queue has room, fails, or stays (R350). -/
def triggerStep (s : State) (c : Nat) (j : CopyJob) (a : W64) (threshold : Nat) : Option State :=
  if j.met then (if (s.coreAt c).queueRoom j.queue then some (fireCopy s c j) else none)
  else
    match readTrigger s j a threshold with
    | .met s => some (triggerMet s c j)
    | .unmet s' => ifMoved s s'
    | .failed s r => some (endCopy s c { j.fail 0x18 a with failDetail := r })
    | .wait s' => ifMoved s s'

/-- The copy engine accepts a post: it has read its descriptor (R346); a `tcopy` is armed, and fires or fails at once where its
trigger says so (R114). -/
def acceptJob (s : State) (c : Nat) (j : CopyJob) : Option State :=
  let w := j.agent unitTable
  let reject (s : State) (a : W64) (r : Nat) (read : Option CopyDesc) : Option State :=
    let j := { j.fail 0x16 a with read := read, failDetail := r }
    let s := acceptPost s j
    some (if j.trigger.isSome then endCopy s c j else s.setJob c j)
  if j.desc.toNat % 64 ≠ 0 then reject s j.desc 0 none
  else if !s.hasTokens c 2 then (if moved s (s.askPort c) then some (s.askPort c) else none)
  else
    match readDwords s w j.desc 8 with
    | .wait s' => ifMoved s s'
    | .trap s i => reject (s.forget w) i.addr (faultReason i) none
    | .failed s => reject (s.forget w) j.desc (s.failReason w) none
    | .ok s ds =>
      let s := (s.forget w).spend c 2
      if j.badDesc ds then reject s j.desc 0 (some (copyDesc ds))
      else
        let j := { j with read := some (copyDesc ds) }
        let armed (s : State) : State := (acceptPost s j).setJob c j
        match j.trigger with
        | none => some (armed s)
        | some (a, threshold) =>
          match readTrigger s j a threshold with
          | .met s => some (triggerMet (armed s) c j)
          | .unmet s | .wait s => some (armed s)
          | .failed s r => some (endCopy (armed s) c { j.fail 0x18 a with failDetail := r })

/-- The first post of a core that can be accepted, accepted. -/
def tryCopyPostAccept (s : State) (c : Nat) : Option State :=
  ((s.coreAt c).copies.filter (fun j => j.read.isNone && j.failed.isNone)).findSome? (acceptJob s c)

/-- COPY_POST_ACCEPT (R346). -/
def execCopyPostAccept (core : Nat) (s : State) : Result := eventResult s (tryCopyPostAccept s core)

/-- A triggered copy that is armed fires, or fails (R114, R350). -/
def tryTcopyFire (s : State) (c : Nat) : Option State :=
  ((s.coreAt c).copies.filter (fun j => (j.read.isSome || j.failed.isSome) && j.armed)).findSome? (fun j =>
    if j.failed.isSome then closeCopy s c j else j.trigger.bind (fun t => triggerStep s c j t.1 t.2))

/-- TCOPY_FIRE (R350). -/
def execTcopyFire (core : Nat) (s : State) : Result := eventResult s (tryTcopyFire s core)

/-- Bytes of a copy (R344). -/
def CopyDesc.total (d : CopyDesc) : Nat := d.len0 * d.cnt1 * d.cnt2

/-- The source of byte number `n` of the copy's loop (R345). -/
def CopyDesc.srcOf (d : CopyDesc) (n : Nat) : Int :=
  d.src.toNat + (n / d.len0 / d.cnt1 : Nat) * d.sstr2 + (n / d.len0 % d.cnt1 : Nat) * d.sstr1 + (n % d.len0 : Nat)

/-- Its destination (R345). -/
def CopyDesc.dstOf (d : CopyDesc) (n : Nat) : Int :=
  d.dst.toNat + (n / d.len0 / d.cnt1 : Nat) * d.dstr2 + (n / d.len0 % d.cnt1 : Nat) * d.dstr1 + (n % d.len0 : Nat)

/-- The virtual address of a byte's destination in global memory. -/
def CopyDesc.dstVa (d : CopyDesc) (n : Nat) : W64 := BitVec.ofInt 64 (d.dstOf n)

/-- The copy has written byte number `n`. -/
def CopyJob.moved (j : CopyJob) (n : Nat) : Bool := decide (n < j.written) || j.early.contains n

/-- How the reading of bytes ends, with the copy that holds what has been read. -/
inductive ByteRead where
  | ok (s : State) (j : CopyJob)
  | fault (s : State) (addr : W64) (detail : Nat)
  | wait (s : State) (j : CopyJob)

/-- Byte number `n` of one side of a copy lies in another sector than the byte before it, so that its access is a request of its own. -/
def newSector (at_ : Nat → Int) (n : Nat) : Bool := decide (n = 0) || decide (at_ n / 32 ≠ at_ (n - 1) / 32)

/-- The source of byte number `n` read, where that has not been done (R345). -/
def readByte (s : State) (c : Nat) (j : CopyJob) (d : CopyDesc) (n : Nat) : ByteRead :=
  let w := j.agent unitCopy
  let keep (s : State) (x : Nat) : ByteRead := .ok s { j with buffer := (n, x) :: j.buffer }
  if j.buffer.any (fun p => p.1 = n) then .ok s j
  else if d.ssp then keep s (s.spadRead c (d.srcOf n).toNat 1)
  else
    let va := BitVec.ofInt 64 (d.srcOf n)
    match readVa s w va 1 with
    | .ok s x => keep ((s.forget w).spend c (if newSector d.srcOf n then 1 else 0)) x
    | .failed s => .fault (s.forget w) va (s.failReason w)
    | .trap s i => .fault s i.addr (faultReason i)
    | .wait s => .wait s j

/-- The sources of several bytes read. -/
def readBytesOf (c : Nat) (d : CopyDesc) : State → CopyJob → List Nat → ByteRead
  | s, j, [] => .ok s j
  | s, j, n :: rest =>
    match readByte s c j d n with
    | .ok s j => readBytesOf c d s j rest
    | r => r

/-- The bytes that the copy has still to write to the 128-byte line of byte `n`: it owns the line from its first write to it to its
last (R390), so that they are written as one. -/
def CopyJob.lineOf (j : CopyJob) (d : CopyDesc) (n : Nat) : List Nat :=
  if d.dsp then [n]
  else (upTo d.total).filter (fun m => decide ((d.dstVa m).toNat / 128 = (d.dstVa n).toNat / 128) && !j.moved m)

/-- The value that a copy has read for a byte. -/
def CopyJob.value (j : CopyJob) (n : Nat) : Nat := ((j.buffer.find? (fun p => p.1 = n)).map Prod.snd).getD 0

/-- The copy once bytes have been written. -/
def CopyJob.wrote (j : CopyJob) (ns : List Nat) : CopyJob :=
  { j with early := ns ++ j.early, buffer := j.buffer.filter (fun p => !ns.contains p.1) }

/-- The aligned pieces of 2^k bytes and less that a set of a line's bytes falls into, from an offset on: the power of each, and its
offset. -/
def linePieces (has : Nat → Bool) : Nat → Nat → List (Nat × Nat)
  | 0, o => if has o then [(0, o)] else []
  | k + 1, o =>
    if (upFrom o (2 ^ (k + 1))).all has then [(k + 1, o)] else linePieces has k o ++ linePieces has k (o + 2 ^ k)

/-- The pieces of a 128-byte line, by their size: those of one size make one request (R357). -/
def lineRequests (has : Nat → Bool) : List (Nat × List Nat) :=
  let pieces := (upTo 16).flatMap (fun k => linePieces has 3 (8 * k))
  [3, 2, 1, 0].map (fun k => (k, (pieces.filter (fun p => p.1 = k)).map Prod.snd))

/-- A line's bytes written at a lender, by one request for each size of piece, all of them sent at once (R390): the lender performs
each piece single-copy atomic (R359). -/
def writeLeased (w : Agent) (line : W64) (t : Target) (value : Nat → Nat) : State → List (Nat × List Nat) → Reached
  | s, [] => .ok s 0
  | s, (_, []) :: rest => writeLeased w line t value s rest
  | s, (k, o :: os) :: rest =>
    let piece (o : Nat) : Nat := joinData 8 ((upFrom o (2 ^ k)).map value)
    let packet (s : State) (l off : Nat) : Packet :=
      { leasedPacket s 2 0 (8 * 2 ^ k) l (off / 128 * 128) w.gtag false ((o :: os).map piece) [] with
        mask := (o :: os).map (fun o => o / 2 ^ k) }
    match reachAt s w (line + BitVec.ofNat 64 o) t (fun s _ => (s, 0)) packet with
    | .ok s _ => writeLeased w line t value s rest
    | .wait s => (match writeLeased w line t value s rest with | .ok s _ | .failed s => .wait s | r => r)
    | .failed s => (match writeLeased w line t value s rest with | .ok s _ => .failed s | r => r)
    | .trap s i => .trap s i

/-- Bytes of one line written together (R390), whose sources have been read. -/
def writeLine (s : State) (c : Nat) (j : CopyJob) (d : CopyDesc) (n : Nat) (line : List Nat) : ByteRead :=
  let w := j.agent unitCopyOut
  let va := d.dstVa n
  if d.dsp then .ok (s.spadWrite c (d.dstOf n).toNat 1 (j.value n)) (j.wrote [n])
  else
    match translate s j.part va .write with
    | (.fault _, s) => .fault s va 0
    | (.revoked _, s) => .fault s va 6
    | (.wait, s) => .wait s j
    | (.ok _ t, s) =>
      match resolve s t with
      | .at pa =>
        let at_ (m : Nat) : Nat := pa / 128 * 128 + (d.dstVa m).toNat % 128
        .ok (line.foldl (fun s m => s.memWrite (at_ m) 1 (j.value m)) s) (j.wrote line)
      | _ =>
        let last (o : Nat) : Option Nat := List.find? (fun m => decide ((d.dstVa m).toNat % 128 = o)) line.reverse
        let value (o : Nat) : Nat := ((last o).map j.value).getD 0
        let base := va - BitVec.ofNat 64 (va.toNat % 128)
        match writeLeased w base t value s (lineRequests (fun o => (last o).isSome)) with
        | .ok s _ => .ok (s.forgetLine w base) (j.wrote line)
        | .failed s => .fault (s.forgetLine w base) va (s.failReason w)
        | .trap s i => .fault s i.addr (faultReason i)
        | .wait s => .wait s j

/-- Sectors of global memory that bytes of a copy are the first to read, and to write (R322). -/
def CopyJob.readTokens (j : CopyJob) (d : CopyDesc) (line : List Nat) : Nat :=
  if d.ssp then 0 else (line.filter (fun m => newSector d.srcOf m && !j.buffer.any (fun p => p.1 = m))).length
/-- The same of what they write. -/
def CopyDesc.writeTokens (d : CopyDesc) (line : List Nat) : Nat :=
  if d.dsp then 0 else (line.filter (newSector d.dstOf)).length

/-- Byte number `n` moved, with `line`, those that are written together with it (R345, R390), once the core's port has tokens for
them (R322). -/
def moveLine (s : State) (c : Nat) (j : CopyJob) (d : CopyDesc) (n : Nat) (line : List Nat) : ByteRead :=
  if !s.hasTokens c (j.readTokens d line + d.writeTokens line) then .wait (s.askPort c) j
  else
    match readBytesOf c d s j line with
    | .ok s j =>
      (match writeLine s c j d n line with
       | .ok s k => .ok (s.spend c (d.writeTokens (line.filter k.moved))) k
       | r => r)
    | r => r

/-- An older vector store of the group, to global memory, to its scratchpad or to a peer's, is still to be performed. -/
def Grp.vectorStoresLeft (g : Grp) (id : Nat) : Bool :=
  g.flights.any (fun f => decide (f.entry.id < id) && (match f.entry.instr with | .vsts _ | .vstp _ => true | _ => false))

/-- Every older write of the posting group is performed, before the copy's first read (R345). -/
def copyMayRead (s : State) (j : CopyJob) : Bool :=
  match posterOf s j.launch j.ordinal with
  | some (_, g) => g.writesDone j.id && !g.vectorStoresLeft j.id
  | none => true

/-- How a run of bytes ends: all moved, one that faults, or one that waits; with the state, the copy and how far it went. -/
inductive CopyRun where
  | all (s : State) (j : CopyJob)
  | fault (s : State) (j : CopyJob) (moved : Nat) (addr : W64) (detail : Nat)
  | wait (s : State) (j : CopyJob) (moved : Nat)

/-- Bytes from number `n` on moved in order, `left` of them, each with its line or, under `single`, alone; those that have been
written are passed over. -/
def moveBytes (c : Nat) (d : CopyDesc) (single : Bool) : State → CopyJob → Nat → Nat → CopyRun
  | s, j, _, 0 => .all s j
  | s, j, n, left + 1 =>
    if j.moved n then moveBytes c d single s j (n + 1) left
    else
      match moveLine s c j d n (if single then [n] else j.lineOf d n) with
      | .ok s j => moveBytes c d single s j (n + 1) left
      | .fault s a r => .fault s j n a r
      | .wait s j => .wait s j n

/-- The copy that its queue has reached: the oldest that has not ended (R347). -/
def CoreUnit.headCopy (u : CoreUnit) (q : Nat) : Option CopyJob := u.copies.find? (fun j => j.queued && decide (j.queue = q))

/-- The copy with its first `n` bytes written. -/
def CopyJob.upTo (j : CopyJob) (n : Nat) : CopyJob := { j with written := n, early := j.early.filter (fun b => n ≤ b) }

/-- The oldest copy of a queue goes on to its end (R346, R347): its bytes are moved and it ends; one that failed ends. A byte
that faults leaves the rest to COPYFAULT. -/
def tryCopyComplete (s : State) (c q : Nat) : Option State := do
  let j ← (s.coreAt c).headCopy q
  if j.failed.isSome then closeCopy s c j
  else
    let d ← j.read
    if !copyMayRead s j then none
    else
      match moveBytes c d false s j j.written (d.total - j.written) with
      | .all s' k => some (endCopy s' c (k.upTo d.total))
      | .fault _ _ _ _ _ => none
      | .wait s' k n =>
        if k.upTo n ≠ j then some (s'.setJob c (k.upTo n)) else ifMoved s s'

/-- COPY_COMPLETE (R346). -/
def execCopyComplete (core queue : Nat) (s : State) : Result := eventResult s (tryCopyComplete s core queue)

/-- The oldest copy of a queue fails on an access that faults, after at most `bytes` more bytes (R348). -/
def tryCopyfault (s : State) (c q bytes : Nat) : Option State := do
  let j ← (s.coreAt c).headCopy q
  let d ← j.read
  if j.failed.isSome || !copyMayRead s j then none
  else
    match moveBytes c d false s j j.written (d.total - j.written) with
    | .fault s1 k n a r =>
      let fail (s : State) (j : CopyJob) : Option State := some (endCopy s c { j.fail 0x17 a with failDetail := r })
      let run := if n - j.written ≤ bytes then moveBytes c d true s1 k n (min (bytes - (n - j.written)) (d.total - n))
        else moveBytes c d true s j j.written bytes
      (match run with
       | .all s j => fail s j
       | .fault s j _ _ _ => fail s j
       | .wait s' k n => if k.upTo n ≠ j then some (s'.setJob c (k.upTo n)) else ifMoved s s')
    | _ => none

/-- COPYFAULT (R348). -/
def execCopyfault (core queue bytes : Nat) (s : State) : Result := eventResult s (tryCopyfault s core queue bytes)

/-- The copy has begun: a byte is read or written, or it has failed. -/
def CopyJob.begun (j : CopyJob) : Bool :=
  decide (j.written ≠ 0) || decide (j.early ≠ []) || decide (j.buffer ≠ []) || j.failed.isSome

/-- Copy `nth` of a core may move bytes out of its turn: the older copies of its queue have begun (R347), and the group's older writes
are performed (R345). -/
def copyRuns (s : State) (c nth : Nat) : Option (CopyJob × CopyDesc) := do
  let l := (s.coreAt c).copies
  let j ← l[nth]?
  let d ← j.read
  if !j.queued || j.failed.isSome || !copyMayRead s j
      || (l.take nth).any (fun k => k.queued && decide (k.queue = j.queue) && !k.begun) then none
  else some (j, d)

/-- One byte of a copy moved early, with its line, by a turn of the agenda: of copy `nth` of a core (R345, R349, log entry 1). -/
def earlyCopy (s : State) (c nth byte : Nat) : Option State := do
  let (j, d) ← copyRuns s c nth
  if byte ≥ d.total || j.moved byte then none
  else
    match moveLine s c j d byte (j.lineOf d byte) with
    | .ok s j => some (s.setJob c j)
    | .wait s j => some (s.setJob c j)
    | _ => none

/-- One byte of a copy read early, and written later, by a turn of the agenda. -/
def earlyCopyRead (s : State) (c nth byte : Nat) : Option State := do
  let (j, d) ← copyRuns s c nth
  let n := if !d.ssp && newSector d.srcOf byte then 1 else 0
  if byte ≥ d.total || j.moved byte || j.buffer.any (fun p => p.1 = byte) || !s.hasTokens c n then none
  else
    match readByte s c j d byte with
    | .ok s j => some (s.setJob c j)
    | .wait s j => some (s.setJob c j)
    | _ => none

/-- `copy` (R343, R346). -/
def execCopy (f : FC) (s : State) : Result :=
  .next (issueVector (.copy f) { reads := [f.sa, f.sb], cf := f.cf, path := some .cp } s)

/-- `tcopy` (R343, R350). -/
def execTcopy (f : FC) (s : State) : Result :=
  .next (issueVector (.tcopy f) { reads := [f.sa, f.sb, f.sc, f.sd], cf := f.cf, path := some .cp } s)

end Sys2Proof.Machine
end

