-- ==== Sys2Proof/Machine/Collective.lean ====
section
/-!
DEFINITION. `coll` and its post to the collective walker of the group's die (R401, R402).
-/
namespace Sys2Proof.Machine

/-- Posted collectives of a die (R402). -/
def State.collsOf (s : State) (die : Nat) : List Coll := s.colls.filter (fun c => c.die = die)

/-- The post that a `coll` makes (R402). -/
def collOf (s : State) (tag : Nat) (g : Grp) (e : VEntry) : Coll :=
  let (base, count) := match s.launchAt g.launch with
    | some l => (l.record.btbase, l.record.btcount)
    | none => ((0 : W64), 0)
  { die := dieOf g.core, gtag := tag, id := e.id, launch := g.launch, ordinal := g.ordinal, part := g.part, pc := e.pc, hdr := e.hdr
    lnr := e.ops.getD 0 0, table := e.ops.getD 1 0, counter := e.ops.getD 2 0, inst := e.ops.getD 3 0
    btbase := base, btcount := count, flags := e.flags, since := s.cycle }

/-- The scope that the post of a `coll` releases at: with ORD = 10 its SCOPE (R402). -/
def collScope (f : FC) : Nat := if f.ord = 2 then f.scope.toNat else 0

/-- The commit of a `coll` posts it (R402), once the group's older accesses are performed; none where the walker holds 16
already. -/
def postColl (s : State) (tag : Nat) (g : Grp) (e : VEntry) (f : FC) : Option State :=
  if (s.collsOf (dieOf g.core)).length ≥ 16 || !g.quietBefore e.id (collScope f) then none
  else
    let fl : Flight := { entry := e, phase := .collective }
    let g' := ({ g with vq := g.vq.tail, flights := g.flights ++ [fl] }.afterOrd f.ord.toNat).freeUndo
    some ({ s with colls := s.colls ++ [collOf s tag g e] }.setGrp tag g')

/-- `coll` (R401, R402). -/
def execColl (f : FC) (s : State) : Result :=
  .next (issueVector (.coll f) { reads := [f.sa, f.sb, f.sc, f.sd], cf := f.cf } s)

end Sys2Proof.Machine
end

