-- ==== Sys2Proof/Machine/Counters.lean ====
section
/-!
DEFINITION. The completion-counter words (R351, R352) and `mwait` (R399, R400).
-/
namespace Sys2Proof.Machine

/-- The word at hand as the agent of its access. -/
def Grp.wordAgent (g : Grp) (tag : Nat) : Agent := g.agent tag unitWord g.nextId g.pc g.hdr

/-- What a word does with the value that its access read; one that the lender could not read is 0 (R330). -/
def Reached.then_ (w : Agent) (r : Reached) (k : State → Nat → Issue) : Issue :=
  match r with
  | .ok s v => k (s.forget w) v
  | .failed s => k (s.forget w) 0
  | .trap s i => .trap s i
  | .wait s => .stall s

/-- The new value of a counter under `ctradd` (R352). -/
def ctraddValue (v old : Nat) : Nat :=
  (old + v) % 2 ^ 63 + (if old % 2 ^ 64 ≥ 2 ^ 63 || v % 2 ^ 64 ≥ 2 ^ 63 then 2 ^ 63 else 0)

/-- A word that writes one status or value register and completes. -/
def doneWith (s : State) (tag : Nat) (g : Grp) (sd : BitVec 6) (x : Nat) : Issue :=
  .done (s.setGrp tag (g.writeReg sd.toNat (BitVec.ofNat 64 x)))

/-- The group once it has accessed a place otherwise than by a form (R245). -/
def Grp.touchAt (g : Grp) (s : State) (t : Target) (n : Nat) : Grp :=
  match resolve s t with
  | .at pa => g.touch 0 pa n
  | _ => g

/-- The check of a dword at a completion counter's address (R352). -/
def ctrAccess (s : State) (g : Grp) (a : W64) (kind : AccessKind) (ord scope : Nat)
    (k : State → Grp → Target → Issue) : Issue :=
  match checkedAccess s g a 8 kind with
  | .trap s i => .trap s i
  | .wait s => .stall s
  | .ok s t =>
    let acc : Access := { elem := 0, size := 8, va := a, target := t }
    if g.accessWaits acc (decide (ord ≥ 2)) scope || (decide (ord % 2 = 1) && s.arrivingAt acc) then .stall s
    else
      let who := (g.wordAgent s.sched.cur).at a
      match resolve s t with
      | .leased _ _ => if s.asked who then k s g t else s.atPort g.core 1 (fun s => k s g t)
      | _ => s.atPort g.core 1 (fun s => k s (g.touchAt s t 8) t)

/-- `ctradd` (R351, R352). -/
def execCtradd (f : FC) (s : State) : Result :=
  .next (issueControl
    { check := f.check true true false true 0 false true 0 (badOrd f.ord.toNat f.scope.toNat [0, 1, 2, 3])
      reads := [f.sa, f.sb], writes := [f.sd], drained := true } (fun s tag g =>
      let a := g.reg f.sa.toNat
      let v := (g.reg f.sb.toNat).toNat
      ctrAccess s g a .atomic f.ord.toNat f.scope.toNat (fun s g t =>
        (rmwAt s (g.wordAgent tag) a t (ctraddValue v)).then_ (g.wordAgent tag) (fun s old =>
          doneWith s tag (g.afterOrd f.ord.toNat) f.sd old))) s)

/-- `ctrset` (R351, R352). -/
def execCtrset (f : FC) (s : State) : Result :=
  .next (issueControl
    { check := f.check true true false false 0 false true 0 (badOrd f.ord.toNat f.scope.toNat [0, 2])
      reads := [f.sa, f.sb], drained := true } (fun s tag g =>
      let a := g.reg f.sa.toNat
      ctrAccess s g a .write f.ord.toNat f.scope.toNat (fun s g t =>
        (writeAt s (g.wordAgent tag) a 8 (g.reg f.sb.toNat).toNat t).then_ (g.wordAgent tag) (fun s _ =>
          .done (s.setGrp tag (g.afterOrd f.ord.toNat))))) s)

/-- What `ctrwait` asks and does (R352): it stalls until the counter meets the value or carries ERR. -/
def ctrwaitWord (f : FC) (s : State) : State :=
  issueControl
    { check := f.check true true false true 0 false true 0 (badOrd f.ord.toNat f.scope.toNat [0, 1])
      reads := [f.sa, f.sb], writes := [f.sd], drained := true } (fun s tag g =>
      let a := g.reg f.sa.toNat
      let v := (g.reg f.sb.toNat).toNat
      ctrAccess s g a .read f.ord.toNat 0 (fun s g t =>
        (readAt s (g.wordAgent tag) a 8 t).then_ (g.wordAgent tag) (fun s x =>
          if x % 2 ^ 63 ≥ v % 2 ^ 63 || bitOf x 63 then doneWith s tag (g.afterOrd f.ord.toNat) f.sd x else .stall s))) s

/-- `ctrwait` (R351, R352). -/
def execCtrwait (f : FC) (s : State) : Result := .next (ctrwaitWord f s)

/-- The word that the control thread of a group has reached. -/
def Grp.wordAt (g : Grp) : Option W64 := g.clause[(g.pc - g.hdr).toNat / 8]?

/-- A stalled word of a group tried again out of its turn, when it is of the kind named. -/
def retryWord (s : State) (tag : Nat) (op : Nat) (fn : Nat) (word : W64 → State → State) : Option State := do
  let g ← s.grp tag
  let w ← g.wordAt
  if g.run ≠ .running ∨ opOf w ≠ op ∨ fnOf w ≠ fn then none
  else
    let s' := word w { s with sched := { s.sched with cur := tag } }
    let s' := { s' with sched := s.sched }
    if s' = s then none else some s'

/-- CTRWAIT_REREAD (R352): a stalled `ctrwait` reads its counter again. -/
def execCtrwaitReread (gtag : Nat) (s : State) : Result :=
  eventResult s (retryWord s gtag 0x64 1 (fun w => ctrwaitWord (FC.ofWord w)))

/-- The condition of an `mwait` holds of a dword read (R400). -/
def mwaitMet (cmp x y : Nat) : Bool :=
  match cmp with
  | 0 => decide (x ≠ y)
  | 1 => decide (x ≥ y)
  | _ => decide (x = y)

/-- What `mwait` asks and does (R399, R400). -/
def mwaitWord (f : FS) (s : State) : State :=
  issueControl
    { check := f.check true true true true 0x7F (badOrd f.ord f.scope [0, 1] || decide (f.w = 3)), reads := [f.sa, f.sb]
      writes := [f.sd], drained := true } (fun s tag g =>
      let a := f.addr g
      ctrAccess s g a .read f.ord 0 (fun s g t =>
        (readAt s (g.wordAgent tag) a 8 t).then_ (g.wordAgent tag) (fun s x =>
          if mwaitMet f.w x (g.reg f.sb.toNat).toNat then doneWith s tag (g.afterOrd f.ord) f.sd x else .stall s))) s

/-- `mwait` (R399, R400). -/
def execMwait (f : FS) (s : State) : Result := .next (mwaitWord f s)

/-- MWAIT_REREAD (R400): a waiting `mwait` reads its dword again. -/
def execMwaitReread (gtag : Nat) (s : State) : Result :=
  eventResult s (retryWord s gtag 0x6C 0 (fun w => mwaitWord (FS.ofWord w)))

end Sys2Proof.Machine
end

