-- ==== Sys2Proof/Machine/Control.lean ====
section
/-!
DEFINITION. Clause fetch and its checks (R44-R48, R61, R62, R132, R137, R145), control transfer (R165-R167), `waitc`
(R152), yield, drain and end (R168), and the taking of a trap found in the vector queue (R418).
-/
namespace Sys2Proof.Machine

/-- A branch's target: H + 8·sign_extend(off32) (R165). -/
def FB.target (f : FB) (g : Grp) : W64 := addrPlus g.hdr f.off 8

/-- The condition of a `br` (R165). -/
def branchTaken (cond : Nat) (x y : W64) : Bool :=
  match cond with
  | 0 => true
  | 1 => decide (x = y)
  | 2 => decide (x ≠ y)
  | 3 => x.slt y
  | 4 => !x.slt y
  | 5 => decide (x < y)
  | _ => !decide (x < y)

/-- `br` (R165). -/
def execBr (f : FB) (s : State) : Result :=
  .next (issueControl { check := f.checkBr, reads := [f.sa, f.sb] } (fun s _ g =>
    if branchTaken f.cond.toNat (g.reg f.sa.toNat) (g.reg f.sb.toNat) then .jump s (FB.target f g) else .done s) s)

/-- `call` (R166). -/
def execCall (f : FB) (s : State) : Result :=
  .next (issueControl { check := f.checkCall, writes := [f.sa] } (fun s tag g =>
    .jump (s.setGrp tag (g.writeReg f.sa.toNat g.nextClause)) (FB.target f g)) s)

/-- `jr` (R167). -/
def execJr (f : FS) (s : State) : Result :=
  .next (issueControl { check := f.check false true false true, reads := [f.sa] } (fun s _ g =>
    let t := addrPlus (g.reg f.sa.toNat) f.imm 8
    if t.toNat % 8 ≠ 0 then .trap s (alignTrap t) else .jump s t) s)

/-- `waitc` of one path (R152). -/
def waitWord (p : Path) (f : FS) (s : State) : Result :=
  .next (issueControl { check := f.check false true false false, reads := [f.sa] } (fun s _ g =>
    if g.counter p ≤ (g.reg f.sa.toNat).toNat then .done s else .stall s) s)

/-- `waitc.ld` (R152). -/
def execWaitcLd (f : FS) (s : State) : Result := waitWord .ld f s
/-- `waitc.st` (R152). -/
def execWaitcSt (f : FS) (s : State) : Result := waitWord .st f s
/-- `waitc.sp` (R152). -/
def execWaitcSp (f : FS) (s : State) : Result := waitWord .sp f s
/-- `waitc.cp` (R152). -/
def execWaitcCp (f : FS) (s : State) : Result := waitWord .cp f s
/-- `waitc.mx` (R152). -/
def execWaitcMx (f : FS) (s : State) : Result := waitWord .mx f s
/-- `waitc.fb` (R152). -/
def execWaitcFb (f : FS) (s : State) : Result := waitWord .fb f s

/-- `yield` (R168): no clause fetch for the next 16 cycles. -/
def execYield (f : FO) (s : State) : Result :=
  .next (issueControl { check := f.check } (fun s tag g =>
    .done (s.setGrp tag { g with yieldUntil := s.cycle + 16 })) s)

/-- A yield that has lasted its 16 cycles ends (R168). -/
def tryYieldExpire (s : State) (tag : Nat) : Option State := do
  let g ← s.grp tag
  if g.yieldUntil ≠ 0 ∧ g.yieldUntil ≤ s.cycle then some (s.setGrp tag { g with yieldUntil := 0 }) else none

/-- YIELD_EXPIRE (R168). -/
def execYieldExpire (gtag : Nat) (s : State) : Result := eventResult s (tryYieldExpire s gtag)

/-- Every older vector-side instruction has completed (R168). -/
def Grp.drained (g : Grp) : Bool := decide (g.vq = []) && decide (g.flights = [])

/-- `vdrain` (R168). -/
def execVdrain (f : FO) (s : State) : Result :=
  .next (issueControl { check := f.check, drained := true } (fun s _ g =>
    if g.drained then .done s else .stall s) s)

/-- What `end` waits for (R168). -/
def Grp.finished (g : Grp) : Bool :=
  g.drained && decide (g.stores = []) && decide (g.loads = []) && decide (g.flags = []) && decide (g.counted = [])

/-- `end` (R168): the task then retires (R441). -/
def execEndGroup (f : FO) (s : State) : Result :=
  .next (issueControl { check := f.check, drained := true } (fun s tag g =>
    if g.finished then .gone (s.setGrp tag { g with run := .ended }) else .stall s) s)

/-- ILLEGAL_CLAUSE with a case number (R46, R415). -/
def clauseTrap (n : Nat) : TrapInfo := { cause := 0x02, detail := n }

/-- A word transfers control (R46). -/
def transfers (w : W64) : Bool :=
  decide (fnOf w = 0) && [0x18, 0x19, 0x1A, 0x1D, 0x70, 0x71].contains (opOf w)

/-- The first case of R46 that a fetched clause breaks. -/
def clauseCase (header : W64) (words : List W64) : Option Nat :=
  let h := header.toNat
  let seta := bitsOf h 44 4
  let setb := bitsOf h 39 4
  let av := bitOf h 43
  let bv := bitOf h 38
  if bitsOf h 60 4 = 0 then some 1
  else if bitsOf h 0 38 ≠ 0 then some 2
  else if (av && decide (seta > 11)) || (bv && decide (setb > 11)) then some 3
  else if (!av && decide (seta ≠ 0)) || (!bv && decide (setb ≠ 0)) then some 4
  else if av && bv && decide (seta = setb) then some 5
  else if words.any (fun w => (w.getLsbD 0 && !av) || (w.getLsbD 1 && !bv)) then some 6
  else if words.dropLast.any transfers then some 7
  else none

/-- How the fetch of one dword ends. -/
inductive Fetched where
  | dword (s : State) (x : W64)
  | trap (s : State) (info : TrapInfo)
  | wait (s : State)
  | leased (s : State) (lease offset : Nat)

/-- A dword at a physical address as a core's instruction cache lets a running launch see it: as it is, or as it was when the core
took it for the launch, until an `icinv` (R62, log entry 13). -/
def cachedDword (s : State) (g : Grp) (pa : Nat) : W64 × State :=
  let r := s.oldOrNew (s.coreAt g.core).icache g.launch pa
  let u := r.2.coreAt g.core
  (r.1, r.2.setCore g.core { u with icache := keepDword u.icache g.launch pa (Memory.dword s.mem pa) })

/-- The FETCHFAULT trap (R61, R415). -/
def fetchTrap (detail : Nat) (a : W64) : TrapInfo := { cause := 0x07, detail := detail, addr := a }

/-- The fetch of the dword at `a` (R61, R62). -/
def fetchDword (s : State) (g : Grp) (a : W64) : Fetched :=
  match translate s g.part a .fetch with
  | (.fault d, s) => .trap s (fetchTrap d a)
  | (.revoked l, s) => .trap s (leaseTrap l a)
  | (.wait, s) => .wait s
  | (.ok _ t, s) =>
    match resolve s t with
    | .at pa => let (x, s) := cachedDword s g pa; .dword s x
    | .locked | .spad _ => .wait s
    | .leased n off => .leased s n off

/-- How the fetch of a clause goes on (R44). -/
inductive ClauseFetch where
  | whole (s : State) (dwords : List W64)
  | trap (s : State) (info : TrapInfo)
  | wait (s : State) (dwords : List W64)
  | leased (s : State) (dwords : List W64) (lease offset : Nat)

/-- The dwords of the clause at `h` from the one after `have_` on, up to LEN + 1 of them. -/
def fetchRest (s : State) (g : Grp) (h : W64) (have_ : List W64) : Nat → ClauseFetch
  | 0 => .whole s have_
  | n + 1 =>
    match have_ with
    | [] =>
      (match fetchDword s g h with
       | .dword s x => fetchRest s g h [x] n
       | .trap s i => .trap s i
       | .wait s => .wait s []
       | .leased s l off => .leased s [] l off)
    | header :: _ =>
      if have_.length > bitsOf header.toNat 60 4 then .whole s have_
      else
        match fetchDword s g (h + BitVec.ofNat 64 (8 * have_.length)) with
        | .dword s x => fetchRest s g h (have_ ++ [x]) n
        | .trap s i => .trap s i
        | .wait s => .wait s have_
        | .leased s l off => .leased s have_ l off

/-- The WAIT field of a header names only clear flags (R45, R48). -/
def Grp.waitClear (g : Grp) (header : W64) : Bool :=
  (upTo 12).all (fun k => !header.getLsbD (48 + k) || decide (g.flag k = 0))

/-- The group wants a clause and may be chosen for one but for its WAIT (R128, R132, R164, R168): neither its vector queue nor
its undo log is full (R140, R143). -/
def Grp.wantsClause (s : State) (g : Grp) : Bool :=
  decide (g.run = .running) && decide (g.clause = []) && decide (g.yieldUntil = 0) && g.asked.isNone && !g.blocked
    && decide (g.vqUsed < Config.vqDepth) && decide (g.undo.length < Config.undoDepth)
    && !g.stores.any (fun e => e.act = .invalidate) && !(s.clusterAt (clusterOf g.core)).busy

/-- The header of the next clause, where memory gives it without a wait or a fault: what WAIT is read from. -/
def headerOf (s : State) (g : Grp) : Option W64 :=
  match g.partly with
  | h :: _ => some h
  | [] =>
    match fetchDword s g g.hdr with
    | .dword _ x => some x
    | _ => none

/-- Eligible for a clause fetch (R132): WAIT is not read where the clause is entered in the middle (R145), or where the
header cannot be read. -/
def Grp.eligible (s : State) (g : Grp) : Bool :=
  g.wantsClause s && (g.midClause || (match headerOf s g with | some h => g.waitClear h | none => true))

/-- Lower priority number first, then the older (R132, R133). -/
def Grp.before (g h : Grp) : Bool :=
  decide (g.prio < h.prio) || (decide (g.prio = h.prio) && (decide (g.age < h.age)
    || (decide (g.age = h.age) && decide (g.ordinal < h.ordinal))))

/-- The first group of a list by an order. -/
def firstBy (before : Grp → Grp → Bool) : List Grp → Option Grp
  | [] => none
  | g :: t => match firstBy before t with
    | none => some g
    | some h => some (if before h g then h else g)

/-- `g` put into a list sorted by an order. -/
def insertBy {α : Type} (before : α → α → Bool) (g : α) : List α → List α
  | [] => [g]
  | h :: t => if before g h then g :: h :: t else h :: insertBy before g t

/-- Groups sorted by an order. -/
def sortBy {α : Type} (before : α → α → Bool) (l : List α) : List α := l.foldr (insertBy before) []

/-- Age alone (R132, R133). -/
def Grp.older (g h : Grp) : Bool :=
  decide (g.age < h.age) || (decide (g.age = h.age) && decide (g.ordinal < h.ordinal))

/-- Passed over for 256 consecutive cycles (R132). -/
def Grp.starving (s : State) (g : Grp) : Bool :=
  match g.waitingSince with
  | some c => decide (c + 256 ≤ s.cycle)
  | none => false

/-- A trap at the header of the clause fetched, once every older instruction has committed (R46, R61, R68). -/
def clauseFault (s : State) (tag : Nat) (g : Grp) (info : TrapInfo) : State :=
  if g.vq = [] then takeTrap s tag info g.hdr g.hdr else s

/-- A clause fetched whole, with its checks (R46, R137): its words then issue from the first, or from the word that a
resume enters it at (R145). A place that lies outside the clause's words is the header of the next clause (R44, log
entry 23). -/
def clauseReady (s : State) (tag : Nat) (g : Grp) (dwords : List W64) : State :=
  match clauseCase (dwords.headD 0) dwords.tail with
  | some n => clauseFault s tag g (clauseTrap n)
  | none =>
    if g.midClause && decide (dwords.length ≤ (g.pc - g.hdr).toNat / 8) then
      s.setGrp tag { g with partly := [], midClause := false, hdr := g.pc }
    else
      s.setGrp tag { g with
        clause := dwords, partly := [], midClause := false, pc := if g.midClause then g.pc else g.hdr + 8 }

/-- The clause fetch of one group (R61, R137). -/
def fetchClause (s : State) (g : Grp) : State :=
  let tag := g.tag
  match fetchRest s g g.hdr g.partly 16 with
  | .whole s ds => clauseReady s tag g ds
  | .trap s i => clauseFault s tag g i
  | .wait s ds => s.setGrp tag { g with partly := ds }
  | .leased s ds n off =>
    let p := leasedPacket s 1 0 64 n off tag false [] []
    (s.setGrp tag { g with partly := ds, asked := some (p.dst, s.nextSeq p.dst) }).request (scalarRequest s g (.fetch tag) p)

/-- The fetch of a group's clause does something now: it does not wait for the host, for a page's lock, or for older
instructions to commit before its trap. -/
def fetchMoves (s : State) (g : Grp) : Bool :=
  let s' := fetchClause s g
  decide (s'.grp g.tag ≠ some g) || decide (s'.hostRequests ≠ s.hostRequests)

/-- The eligible groups of a core among which one is chosen: those passed over for 256 cycles go ahead of all others,
oldest first; else the lowest priority number, then the oldest (R132). -/
def chooseForFetch (s : State) (core : Nat) : Option Grp :=
  let el := (s.groupsOf core).filter (fun g => g.eligible s && fetchMoves s g)
  match firstBy Grp.older (el.filter (fun g => g.starving s)) with
  | some g => some g
  | none => firstBy Grp.before el

/-- The eligible groups that a selection passes over begin to wait, and the others do not wait (R132). -/
def notePassedOver (s : State) (core chosen : Nat) : State :=
  { s with groups := s.groups.map (fun p =>
      if p.2.core ≠ core then p
      else if p.1 = chosen then (p.1, { p.2 with waitingSince := none })
      else if p.2.eligible s then (p.1, { p.2 with waitingSince := some (p.2.waitingSince.getD s.cycle) })
      else (p.1, { p.2 with waitingSince := none })) }

/-- The clause fetch of the group that a core's front end selects (R132); none where no group is eligible. -/
def tryClauseFetch (s : State) (core : Nat) : Option State := do
  let g ← chooseForFetch s core
  some (fetchClause (notePassedOver s core g.tag) { g with waitingSince := none })

/-- CLAUSE_FETCH (R132, R137). -/
def execClauseFetch (core : Nat) (s : State) : Result := eventResult s (tryClauseFetch s core)

/-- FETCH_STARVATION (R132): the fetch of a group that has been passed over for 256 cycles. -/
def execFetchStarvation (core : Nat) (s : State) : Result :=
  eventResult s (if (s.groupsOf core).any (fun g => g.eligible s && fetchMoves s g && g.starving s) then tryClauseFetch s core else none)

/-- The trap found at the head of the vector queue is taken at VCOMMIT (R141, R418). -/
def tryTakeTrap (s : State) (tag : Nat) : Option State := do
  let g ← s.grp tag
  let e ← g.vq.head?
  let i ← e.trap
  some (takeTrap s tag i e.pc e.hdr)

/-- TAKE_TRAP (R418). -/
def execTakeTrap (gtag : Nat) (s : State) : Result := eventResult s (tryTakeTrap s gtag)

end Sys2Proof.Machine
end

