-- ==== Sys2Proof/Machine/StateRegs.lean ====
section
/-!
DEFINITION. `getsr` and `setsr` over every state register (R39-R43, R182, R240, R278, R417, R435, R436, R452).
-/
namespace Sys2Proof.Machine

/-- The level of an index's range (R39). -/
def srLevel (i : Nat) : Level := if i < 0x100 then .user else if i < 0x200 then .supervisor else .machine

/-- The registers whose `setsr` passes through the vector queue (R43). -/
def srQueued (i : Nat) : Bool := [0x001, 0x004, 0x005, 0x010, 0x011, 0x012].contains i

/-- The control-side registers (R43): FPROG0-FPROG7, the trap registers and the root registers. -/
def srControl (i : Nat) : Bool := (decide (0x20 ≤ i) && decide (i ≤ 0x27)) || decide (0x100 ≤ i)

/-- Registers that are RO at a level (R39, R452). -/
def srReadOnly (l : Level) (i : Nat) : Bool :=
  [0x000, 0x002, 0x003, 0x006, 0x007].contains i || (decide (0x30 ≤ i) && decide (i ≤ 0x35))
    || (decide (0x20 ≤ i) && decide (i ≤ 0x27) && decide (l.num = 0))
    || [0x200, 0x201].contains i || (decide (0x208 ≤ i) && decide (i ≤ 0x217))

/-- The path of a counter register (R39, R150). -/
def pathOf (i : Nat) : Path :=
  match i with
  | 0x30 => .ld
  | 0x31 => .st
  | 0x32 => .sp
  | 0x33 => .cp
  | 0x34 => .mx
  | _ => .fb

/-- The bits that a `setsr` writes (R240, R417, R436, R452); every other bit is kept. -/
def srWritable (i : Nat) : W64 :=
  match i with
  | 0x005 => 0xFFFFFFFF
  | 0x020 => 0xF0000000FFFFFFFF
  | 0x024 => 0xFFFF
  | 0x025 | 0x026 | 0x027 => 0
  | 0x100 | 0x101 => 0xFFFFFFFFFFFFFFF8
  | 0x102 => 0x007FFFFF03FFFFFF
  | _ => 0xFFFFFFFFFFFFFFFF

/-- A write's result in a register that keeps its other bits (R436). -/
def srMerge (i : Nat) (old new : W64) : W64 := (old &&& ~~~(srWritable i)) ||| (new &&& srWritable i)

/-- Dword `k` of a 64-byte value, byte 8k in its low bits (R452). -/
def dwordOf (h : BitVec 512) (k : Nat) : W64 := h.extractLsb' (64 * k) 64

/-- SEQ of the oldest audit entry retained (R452). -/
def Root.oldest (r : Root) : Nat := r.audseq - r.log.length

/-- A state register of a group as it stands (R39). -/
def readSr (s : State) (g : Grp) (i : Nat) : W64 :=
  match i with
  | 0x000 => BitVec.ofNat 64 g.vl
  | 0x001 => g.vconf
  | 0x002 => BitVec.ofNat 64 g.vtail
  | 0x003 => g.vcommit
  | 0x004 => BitVec.ofNat 64 g.xflagsNow
  | 0x005 => BitVec.ofNat 64 g.allocth
  | 0x006 => BitVec.ofNat 64 s.cycleReg
  | 0x007 => BitVec.ofNat 64 (s.vlmax g.core)
  | 0x010 => g.rankcfg
  | 0x011 => g.attbase
  | 0x012 => g.recbase
  | 0x100 => g.tepc
  | 0x101 => g.thdr
  | 0x102 => g.tcause
  | 0x103 => g.taddr
  | 0x104 => g.tscr0
  | 0x105 => g.tscr1
  | 0x200 => BitVec.ofNat 64 s.root.audseq
  | 0x201 => BitVec.ofNat 64 s.root.oldest
  | 0x202 => BitVec.ofNat 64 (bit s.root.busy * 2 ^ 62 + s.root.opn)
  | 0x203 => s.root.arg
  | 0x204 => s.root.nonce
  | i =>
    if i < 0x28 then FMap.get 0 g.fprog (i - 0x20)
    else if i < 0x40 then BitVec.ofNat 64 (g.counter (pathOf i))
    else if i < 0x210 then dwordOf s.root.head (i - 0x208)
    else dwordOf s.root.bootm (i - 0x210)

/-- A word that changes VL, VTAIL or VCONF has not executed (R182). -/
def Grp.configPending (g : Grp) : Bool :=
  let sets (i : Instr) : Bool := match i with | .vsetvl _ => true | .setsr f => decide (f.index = 1) | _ => false
  g.vq.any (fun e => sets e.instr) || g.flights.any (fun f => f.phase = .ready && sets f.entry.instr)

/-- An older `setsr` of the register has not executed (R43). -/
def Grp.setsrPending (g : Grp) (i : Nat) : Bool :=
  g.vq.any (fun e => match e.instr with | .setsr f => decide (f.index = i) | _ => false)

/-- A `getsr` waits for older words (R43, R182). -/
def Grp.srWaits (g : Grp) (i : Nat) : Bool :=
  match i with
  | 0x000 | 0x001 | 0x002 => g.configPending
  | 0x005 | 0x010 | 0x011 | 0x012 => g.setsrPending i
  | _ => false

/-- `getsr` (R435, R436). -/
def execGetsr (f : FI) (s : State) : Result :=
  .next (issueControl
    { check := f.check true false 0xFFF false (!assignedSr f.index), level := srLevel f.index, writes := [f.sd]
      drained := srControl f.index } (fun s tag g =>
      if g.srWaits f.index then .stall s
      else .done (s.setGrp tag (g.writeReg f.sd.toNat (readSr s g f.index)))) s)

/-- A VCONF value fails R40. -/
def badVconf (x : Nat) : Bool :=
  let drm := bitsOf x 13 3
  decide (drm = 0 ∨ drm > 5) || decide (bitsOf x 10 3 > 3) || decide (bitsOf x 2 4 = 15) || decide (bitsOf x 16 48 ≠ 0)
    || decide (bitsOf x 6 4 ≠ 0) || decide (bitsOf x 0 2 ≠ 0)

/-- A RANKCFG value fails R278. -/
def badRankcfg (x : Nat) : Bool :=
  decide (bitsOf x 47 17 ≠ 0) || decide (bitsOf x 27 5 ≠ 0) || decide (bitsOf x 12 4 ≠ 0) || decide (bitsOf x 0 12 > 2048)
    || decide (bitsOf x 32 15 = 0x7FFF)

/-- A `setsr` of a queued register is refused when it leaves the queue (R40, R278, R436). -/
def setsrTrap (f : FI) (ops : List W64) : Option TrapInfo :=
  let x := (ops.headD 0).toNat
  let bad := match f.index with
    | 0x001 => badVconf x
    | 0x004 => decide (bitsOf x 6 58 ≠ 0)
    | 0x010 => badRankcfg x
    | _ => false
  if bad then some (illegal 4) else none

/-- A queued `setsr` at its commit (R43). -/
def effSetsr (g : Grp) (f : FI) (ops : List W64) : Grp :=
  let x := ops.headD 0
  match f.index with
  | 0x001 => { g with vconf := x }
  | 0x004 => { g with xflags := x.toNat }
  | 0x005 => { g with allocth := x.toNat % 2 ^ 32 }
  | 0x010 => { g with rankcfg := x }
  | 0x011 => { g with attbase := x }
  | 0x012 => { g with recbase := x }
  | _ => g

/-- A flag of an older instruction may still reach XFLAGS (R43). -/
def Grp.flagsPending (g : Grp) (id : Nat) : Bool :=
  g.flights.any (fun f => decide (f.entry.id < id)
    && (decide (f.phase = .ready) || decide (f.phase = .matrix) || decide (f.phase = .reducing)))

/-- The command register of the audit log written (R452): a GO write while an operation is under way is discarded; a write without GO
changes OPN and not the operation under way. -/
def Root.command (r : Root) (x : W64) : Root :=
  let op := bitsOf x.toNat 0 2
  if x.getLsbD 63 && r.busy then r
  else if x.getLsbD 63 then { r with opn := op, busy := decide (op = 1 ∨ op = 2), doing := op }
  else { r with opn := op }

/-- A control-side register written (R240, R417, R436, R452); none where the value is refused. -/
def writeSr (s : State) (tag : Nat) (g : Grp) (i : Nat) (x : W64) : Option State :=
  let put (g : Grp) : Option State := some (s.setGrp tag g)
  match i with
  | 0x100 => put { g with tepc := srMerge i g.tepc x }
  | 0x101 => put { g with thdr := srMerge i g.thdr x }
  | 0x102 => if x.getLsbD 25 then none else put { g with tcause := srMerge i g.tcause x }
  | 0x103 => put { g with taddr := x }
  | 0x104 => put { g with tscr0 := x }
  | 0x105 => put { g with tscr1 := x }
  | 0x202 => some { s with root := s.root.command x }
  | 0x203 => some { s with root := { s.root with arg := x } }
  | 0x204 => some { s with root := { s.root with nonce := x } }
  | _ => put { g with fprog := FMap.set 0 g.fprog (i - 0x20) (srMerge i (FMap.get 0 g.fprog (i - 0x20)) x) }

/-- A `setsr` of VCONF that issues: the control thread's copy of DRM follows it at once, and is logged until the word commits
(R143, R158). -/
def Grp.followDrm (g : Grp) (x : W64) : Grp :=
  { g with drm := bitsOf x.toNat 13 3, undo := g.undo ++ [(g.nextId, .drm g.drm)] }

/-- A queued `setsr` issues; one of VCONF waits while the undo log is full (R143). -/
def issueSetsr (f : FI) (s : State) : State :=
  let tag := s.sched.cur
  let s' := issueVector (.setsr f) { reads := [f.sa] } s
  match s.grp tag, s'.grp tag with
  | some g, some g' =>
    if f.index ≠ 1 ∨ g'.nextId = g.nextId then s'
    else if g.undo.length ≥ Config.undoDepth then s
    else s'.setGrp tag (g'.followDrm (g.reg f.sa.toNat))
  | _, _ => s'

/-- `setsr` (R435, R436). DESIGN CHOICE (log entry 35): that a register is read-only at the current level is found at execution, after
the decode checks of R67, so that a word with another decode reason reports that one. -/
def execSetsr (f : FI) (s : State) : Result :=
  .next (if srQueued f.index then issueSetsr f s
    else issueControl
      { check := f.check false true 0xFFF false (!assignedSr f.index), level := srLevel f.index, reads := [f.sa]
        drained := srControl f.index } (fun s tag g =>
        if srReadOnly g.level f.index then .trap s (illegal 4)
        else
          match writeSr s tag g f.index (g.reg f.sa.toNat) with
          | some s => .done s
          | none => .trap s (illegal 4)) s)

end Sys2Proof.Machine
end

