-- ==== Sys2Proof/Machine/Queue.lean ====
section
/-!
DEFINITION. Host work queues, launch records and `launch` (R73-R77, R94-R116): from the doorbell to admission.
-/
namespace Sys2Proof.Machine

/-- A queue number that stands for the records posted by `launch` (R116). -/
abbrev noQueue : Nat := 0xFFFFFFFF

/-- Where a record came from, as an event says it (R423): the queue, the index, and for a post the record and its word. -/
def Origin.report (o : Origin) (cause part : Nat) : Report :=
  match o with
  | .queue q index => { cause := cause, part := part, a0 := q, a1 := index }
  | .group tag record pc hdr =>
    { cause := cause, part := part, gtag := tag, pc := pc, hdr := hdr, addr := record, a0 := noQueue }

/-- The launch event of a queue (R103). DESIGN CHOICE (log entry 35): where no one record is concerned, the record index is RPTR. -/
def queueReport (q : Nat) (u : QueueUnit) (cause : Nat) : Report :=
  { cause := cause, part := u.part, a0 := q, a1 := u.rptr }

/-- The host has lapped the device (R99). -/
def QueueUnit.lapped (u : QueueUnit) : Bool := decide (u.state = .active) && decide (u.wptr - u.rptr > 2 ^ u.log2d)

/-- The check of R99 made at an accepted WPTR write and at a fetch. -/
def checkLapped (s : State) (q : Nat) : State :=
  let u := s.queueAt q
  if u.lapped then postEvent (s.setQueue q { u with state := .overrun }) (queueReport q u 0x10) else s

/-- A doorbell write that is discarded (R98). No record is concerned: the record index of its event is not stated (log entry
16). -/
def badDoorbell (s : State) (q value : Nat) : State :=
  postEvent s { queueReport q (s.queueAt q) 0x14 with a1 := Config.unstated 10 [q, value] }

/-- A write of WPTR of 8 aligned bytes (R98). -/
def writeWptr (s : State) (q value : Nat) : State :=
  let u := s.queueAt q
  if value < u.wptr then badDoorbell s q value else checkLapped (s.setQueue q { u with wptr := value }) q

/-- WPTR_WRITE (R98, R99). -/
def execWptrWrite (queue : Nat) (value : BitVec 64) (s : State) : Result :=
  .next (if queue < Config.queues then writeWptr s queue value.toNat else s)

/-- A queue descriptor keeps R96. -/
def descOk (d0 d1 : Nat) : Bool :=
  decide (bitsOf d0 57 7 = 0 ∧ bitsOf d0 5 2 = 0 ∧ 4 ≤ bitsOf d0 0 5 ∧ bitsOf d0 0 5 ≤ 16)
    && decide (bitsOf d1 32 32 = 0 ∧ bitsOf d1 8 19 = 0)

/-- A queue is reset (R96, R99, R100): its descriptor is read, and a fetch that is under way is dropped. The ring's address is
canonical: its bits above bit 56 are copies of it. DESIGN CHOICE (log entry 35): QDBASE is a device physical address, used as
written, its low 16 bits too; a descriptor that names no memory (R477) leaves its queue as one that breaks R96 does; and a record that
has been fetched keeps its partition and goes on waiting. -/
def resetQueue (s : State) (q : Nat) : State :=
  let u := s.queueAt q
  let a := s.qdbase.toNat + 16 * q
  let (d0, d1) := ((Memory.dword s.mem a).toNat, (Memory.dword s.mem (a + 8)).toNat)
  if !namesMemory s.dieMask a || !namesMemory s.dieMask (a + 8) || !descOk d0 d1 then
    postEvent (s.setQueue q { u with state := .disabled, fetching := false })
      { queueReport q u 0x11 with part := 255, a1 := Config.unstated 10 [q] }
  else if !bitOf d1 31 then s.setQueue q { u with state := .disabled, fetching := false }
  else s.setQueue q { u with
    state := .active, fetching := false, rptr := u.wptr
    rbase := (BitVec.ofNat 57 (bitsOf d0 7 50 * 128)).signExtend 64, log2d := bitsOf d0 0 5, lrf128 := bitOf d1 30, priomin := bitsOf d1 27 3, part := bitsOf d1 0 8 }

/-- QRESET (R100). A value that is no queue's number resets none. -/
def execQreset (queue : Nat) (s : State) : Result := .next (if queue < Config.queues then resetQueue s queue else s)

/-- The fetch of record RPTR is issued (R99, R101). -/
def tryRecordFetch (s : State) (q : Nat) : Option State :=
  let u := s.queueAt q
  if s.root.halted || u.state ≠ .active || u.fetching || u.rptr ≥ u.wptr || (Assoc.find? s.fetched q).isSome then none
  else if u.lapped then some (checkLapped s q)
  else some (s.setQueue q { u with fetching := true })

/-- RECORD_FETCH (R101). -/
def execRecordFetch (queue : Nat) (s : State) : Result := eventResult s (tryRecordFetch s queue)

/-- Word of 32 bits at a byte offset of a list of dwords. -/
def wordAt32 (ds : List W64) (off : Nat) : Nat := bitsOf (ds.getD (off / 8) 0).toNat (off % 8 * 8) 32

/-- n_L (R76). -/
def LnrLevel.trips (l : LnrLevel) : Nat :=
  let n := if l.step > 0 then l.hi - l.lo else l.lo - l.hi
  ((n + (l.step.natAbs : Int) - 1) / (l.step.natAbs : Int)).toNat

/-- T (R76). -/
def Lnr.total (r : Lnr) : Nat := (r.levels.map LnrLevel.trips).prod

/-- A loop-nest record of a kind, from its dwords; none where it breaks R75. -/
def lnrOf (ds : List W64) (kind : Nat) : Option Lnr :=
  let ctl := (ds.getD 0 0).toNat
  let n := bitsOf ctl 0 3
  let order := bitsOf ctl 3 2
  let entry (l : Nat) (k : Nat) : Nat := wordAt32 ds (16 + 12 * l + 4 * k)
  let levels := (upTo n).map (fun l =>
    (⟨toSigned 32 (entry l 0), toSigned 32 (entry l 1), toSigned 32 (entry l 2)⟩ : LnrLevel))
  let r : Lnr := ⟨order, levels⟩
  if n = 0 ∨ n > 4 ∨ order = 3 ∨ (order = 2 ∧ n = 1) ∨ bitsOf ctl 5 1 ≠ kind ∨ bitsOf ctl 6 58 ≠ 0 ∨ ds.getD 1 0 ≠ 0 then none
  else if levels.any (fun l => l.step = 0) || (upTo (4 - n)).any (fun j => (upTo 3).any (fun k => entry (n + j) k ≠ 0)) then none
  else if r.total ≥ 2 ^ 48 then none
  else some r

/-- The iteration numbers of position `j` of a walk whose last level varies fastest (R77). -/
def rowMajor : List Nat → Nat → List Nat
  | [], _ => []
  | _ :: rest, j => (j / rest.prod) :: rowMajor rest (j % rest.prod)

/-- Pairs of a square of side 2^b at (x, y) that lie below (n, m). -/
def pairsIn (n m b x y : Nat) : Nat := min (n - x) (2 ^ b) * min (m - y) (2 ^ b)

/-- The pair at position `j` of the Morton order within the square of side 2^b at (x, y), of pairs below (n, m) (R77). -/
def mortonAt (n m : Nat) : Nat → Nat → Nat → Nat → Nat × Nat
  | 0, _, x, y => (x, y)
  | b + 1, j, x, y =>
    let h := 2 ^ b
    let c0 := pairsIn n m b x y
    let c1 := pairsIn n m b x (y + h)
    let c2 := pairsIn n m b (x + h) y
    if j < c0 then mortonAt n m b j x y
    else if j < c0 + c1 then mortonAt n m b (j - c0) x (y + h)
    else if j < c0 + c1 + c2 then mortonAt n m b (j - c0 - c1) (x + h) y
    else mortonAt n m b (j - c0 - c1 - c2) (x + h) (y + h)

/-- The iteration numbers of the tuple with an ordinal (R77). -/
def Lnr.tuple (r : Lnr) (j : Nat) : List Nat :=
  let ns := r.levels.map LnrLevel.trips
  match r.order, ns with
  | 1, _ => (rowMajor ns.reverse j).reverse
  | 2, n :: m :: inner =>
    let p := mortonAt n m 32 (j / inner.prod) 0 0
    p.1 :: p.2 :: rowMajor inner (j % inner.prod)
  | _, _ => rowMajor ns j

/-- The index values i_L of a tuple, as registers (R76, R77). -/
def Lnr.indices (r : Lnr) (j : Nat) : List W64 :=
  (r.levels.zip (r.tuple j)).map (fun p => BitVec.ofInt 64 (p.1.lo + p.2 * p.1.step))

/-- The resource dword of a record (R106, R108): VCONF, VL, SPAD and NREG keep their ranges. -/
def resourcesOk (d : Nat) : Bool :=
  !badVconf (bitsOf d 24 16) && decide (1 ≤ bitsOf d 15 9 ∧ bitsOf d 15 9 ≤ 256) && decide (bitsOf d 9 6 ≤ 32)
    && decide (1 ≤ bitsOf d 0 6 ∧ bitsOf d 0 6 ≤ 32)

/-- The checks of an LRF-128 record's own dwords (R106). -/
def record128Ok (ds : List W64) : Bool :=
  let d (k : Nat) : Nat := (ds.getD k 0).toNat
  let nwait := bitsOf (d 0) 12 4
  let ptr := bitOf (d 0) 9
  decide (bitsOf (d 0) 16 48 = 0) && decide (nwait ≤ 4) && !bitOf (d 0) 11 && decide (bitsOf (d 0) 7 2 ≠ 3)
    && decide (bitsOf (d 0) 0 4 = 2) && decide (d 1 % 8 = 0) && canonical (ds.getD 1 0) && decide (d 3 % 64 = 0)
    && decide (bitsOf (d 4) 53 11 = 0) && decide (bitsOf (d 4) 40 13 ≤ 4096) && resourcesOk (d 4)
    && decide (bitsOf (d 4) 6 3 ≤ 4) && decide (d 5 % 8 = 0)
    && (if nwait > 0 then decide (d 6 % 64 = 0) else decide (d 6 = 0))
    && (if ptr then decide (d 7 % 64 = 0) && (ds.drop 8).all (fun x => x = 0)
        else decide (d 7 = 0) && (lnrOf (ds.drop 8) 0).isSome)

/-- The checks of an LRF-64 record (R108). -/
def record64Ok (ds : List W64) : Bool :=
  let d (k : Nat) : Nat := (ds.getD k 0).toNat
  let wait := bitOf (d 0) 12
  decide (bitsOf (d 0) 13 51 = 0) && !bitOf (d 0) 11 && !bitOf (d 0) 9 && decide (bitsOf (d 0) 7 2 ≠ 3)
    && decide (bitsOf (d 0) 0 4 = 1) && decide (d 1 % 8 = 0) && canonical (ds.getD 1 0) && decide (bitsOf (d 3) 40 24 = 0)
    && decide (bitsOf (d 3) 6 3 = 0) && resourcesOk (d 3) && decide (d 4 % 8 = 0)
    && (if wait then decide (d 5 % 8 = 0) && !bitOf (d 6) 63 else decide (d 5 = 0 ∧ d 6 = 0))

/-- A record is in the 128-byte format: its length. -/
def PendingRec.wide (p : PendingRec) : Bool := decide (p.raw.length = 16)

/-- DONE as a record's dwords hold it. -/
def PendingRec.done (p : PendingRec) : W64 := p.raw.getD (if p.wide then 5 else 4) 0

/-- The fields of a record, with its loop-nest record (R102, R106, R108). -/
def PendingRec.fields (p : PendingRec) (lnr : Lnr) : LaunchRec :=
  let d (k : Nat) : Nat := (p.raw.getD k 0).toNat
  let res := d (if p.wide then 4 else 3)
  { entry := p.raw.getD 1 0, args := p.raw.getD 2 0
    btbase := if p.wide then p.raw.getD 3 0 else 0, btcount := if p.wide then bitsOf res 40 13 else 0
    vconf := BitVec.ofNat 64 (bitsOf res 24 16), vl := bitsOf res 15 9, spad := bitsOf res 9 6, nacc := bitsOf res 6 3
    nreg := bitsOf res 0 6, done := p.done, prio := max (bitsOf (d 0) 4 3) p.least, cls := bitsOf (d 0) 7 2
    l1fuse := bitOf (d 0) 10, lnr := lnr, part := p.part, home := p.home, origin := p.origin }

/-- The agent that reads a record and what it names. -/
def PendingRec.agent (p : PendingRec) : Agent :=
  match p.origin with
  | .queue q index => { unit := unitRecord, a := q, b := index, part := p.part }
  | .group tag record pc hdr =>
    { unit := unitRecord, a := 2 ^ 20 + tag, b := record.toNat, part := p.part, gtag := tag, pc := pc, hdr := hdr }

/-- The entries of a wait block (R107); none where one breaks its rule. -/
def waitEntries : List W64 → Option (List (W64 × Nat))
  | a :: v :: rest =>
    if a.toNat % 8 ≠ 0 || v.getLsbD 63 then none else (waitEntries rest).map (fun l => (a, v.toNat) :: l)
  | _ => some []

/-- How the validation of a record ends. -/
inductive Validated where
  | ok (s : State) (p : PendingRec)
  | bad (s : State)
  | wait (s : State)

/-- A record validated (R101, R106-R108): its own checks, then its wait block, then its loop-nest record. -/
def validate (s : State) (p : PendingRec) : Validated :=
  let w := p.agent
  let d (k : Nat) : Nat := (p.raw.getD k 0).toNat
  if !p.wide then
    if !record64Ok p.raw then .bad s
    else
      let lnr : Lnr := ⟨0, [⟨toSigned 32 (wordAt32 p.raw 0x38), toSigned 32 (wordAt32 p.raw 0x3C), 1⟩]⟩
      .ok s { p with
        record := some (p.fields lnr), waits := if bitOf (d 0) 12 then [(p.raw.getD 5 0, d 6)] else [] }
  else if !record128Ok p.raw then .bad s
  else
    match readDwords s w (p.raw.getD 6 0) (2 * bitsOf (d 0) 12 4) with
    | .wait s => .wait s
    | .trap s _ | .failed s => .bad (s.forget w)
    | .ok s block =>
      match readDwords s w (p.raw.getD 7 0) (if bitOf (d 0) 9 then 8 else 0) with
      | .wait s => .wait s
      | .trap s _ | .failed s => .bad (s.forget w)
      | .ok s ds =>
        let s := s.forget w
        match waitEntries block, lnrOf (if bitOf (d 0) 9 then ds else p.raw.drop 8) 0 with
        | some waits, some lnr => .ok s { p with record := some (p.fields lnr), waits := waits }
        | _, _ => .bad s

/-- The event of a launch's DONE that does not translate (R478); of a posted launch with the group that posted it (R422). -/
def doneFault (o : Origin) (part launch : Nat) : Report :=
  let n := launch % 2 ^ 32
  match o with
  | .queue _ _ => { cause := 0x26, part := part, launch := n, a0 := n }
  | .group tag _ pc hdr => { cause := 0x26, part := part, gtag := tag, launch := n, pc := pc, hdr := hdr, a0 := n }

/-- A pending record replaced where it stands: in a queue's place, or among the posted ones. -/
def State.putPending (s : State) (q : Nat) (p new : PendingRec) : State :=
  if q = noQueue then { s with posted := s.posted.replace p new } else { s with fetched := Assoc.put s.fetched q new }

/-- A pending record forgotten. -/
def State.dropPending (s : State) (q : Nat) (p : PendingRec) : State :=
  if q = noQueue then { s with posted := s.posted.erase p } else { s with fetched := Assoc.del s.fetched q }

/-- The pending records of a queue, or all the posted ones. -/
def State.pendingOf (s : State) (q : Nat) : List PendingRec :=
  if q = noQueue then s.posted else (Assoc.find? s.fetched q).toList

/-- A fetched record fails (R103): its DONE is raised with ERR where it is a counter's address, and its event posted. A record whose
raise waits for the host or a lender has failed already: what it failed on is not looked at again. -/
def failRecord (s : State) (q : Nat) (p : PendingRec) (cause : Nat) : Option State :=
  let a := if p.done.toNat % 8 = 0 then p.done else 0
  match raiseCounter s { p.agent with unit := unitCounter } a true (doneFault p.origin p.part 0) with
  | .wait s' =>
    let t := s'.putPending q p { p with failed := some cause }
    if p.failed.isNone then some t else ifMoved s t
  | .done s => some ((postEvent (s.forget p.agent) (p.origin.report cause p.part)).dropPending q p)

/-- A record that has failed posts its event once the raise of its DONE ends; one that is not validated yet is validated (R101). -/
def validateRecord (s : State) (q : Nat) (p : PendingRec) : Option State :=
  match p.failed with
  | some cause => failRecord s q p cause
  | none =>
    if p.record.isSome then none
    else
      match validate s p with
      | .ok s new => some (s.putPending q p new)
      | .bad s => failRecord s q p 0x11
      | .wait s' => ifMoved s s'

/-- A record of a queue, or the first posted one for which there is something to do, is validated (R101), or ends as failed. -/
def tryValidate (s : State) (q : Nat) : Option State := (s.pendingOf q).findSome? (validateRecord s q)

/-- A record that is fetched arrives (R101): RPTR moves on; an unresolvable fault stops the queue (R99). -/
def tryArrive (s : State) (q : Nat) : Option State :=
  let u := s.queueAt q
  if !u.fetching || u.state ≠ .active then none
  else if u.lapped then some (checkLapped (s.setQueue q { u with fetching := false }) q)
  else
    let size := if u.lrf128 then 128 else 64
    let w : Agent := { unit := unitRecord, a := q, b := u.rptr, part := u.part }
    let va := u.rbase + BitVec.ofNat 64 (u.rptr % 2 ^ u.log2d * size)
    match readDwords s w va (size / 8) with
    | .wait s' => ifMoved s s'
    | .trap s _ | .failed s =>
      some (postEvent ((s.forget w).setQueue q { u with fetching := false, state := .stopped }) (queueReport q u 0x15))
    | .ok s ds =>
      let p : PendingRec := { raw := ds, part := u.part, home := q % 8, least := u.priomin, origin := .queue q u.rptr }
      let s := (s.forget w).setQueue q { u with fetching := false, rptr := u.rptr + 1 }
      let s := { s with fetched := Assoc.put s.fetched q p }
      some ((tryValidate s q).getD s)

/-- RECORD_ARRIVAL (R101): of a queue's record, or the validation of one already read or posted. -/
def execRecordArrival (queue : Nat) (s : State) : Result :=
  eventResult s ((tryValidate s queue).orElse (fun _ => tryArrive s queue))

/-- How the reading of a record's counters ends (R112). -/
inductive WaitRead where
  | met (s : State)
  | unmet (s : State)
  | fails (s : State) (cause : Nat)
  | wait (s : State)

/-- One counter's reading before those of the rest: an entry that is not met, or waits, keeps the record waiting, unless a later one
fails it. -/
def WaitRead.before (r : WaitRead) (rest : State → WaitRead) : WaitRead :=
  match r with
  | .met s => rest s
  | .unmet s => (match rest s with | .met s => .unmet s | r => r)
  | .wait s => (match rest s with | .met s | .unmet s => .wait s | r => r)
  | r => r

/-- A waited-on counter read (R112). -/
def readWait (s : State) (p : PendingRec) (a : W64) (value : Nat) : WaitRead :=
  match readVa s p.agent a 8 with
  | .ok s x => if bitOf x 63 then .fails s 0x13 else if value ≤ x % 2 ^ 63 then .met s else .unmet s
  | .failed s | .trap s _ => .fails s 0x11
  | .wait s => .wait s

/-- All the entries of a record read at one moment (R112, R113): one that lies at a lender as it was last answered (log entry 17). -/
def readWaits (s : State) (p : PendingRec) : List (W64 × Nat) → WaitRead
  | [] => .met s
  | (a, v) :: rest => (readWait s p a v).before (fun s => readWaits s p rest)

/-- The counters of a waiting record read again; none where nothing changes. Answers that do not let it go are asked for anew. -/
def rereadWaits (s : State) (q : Nat) (p : PendingRec) : Option State :=
  if p.record.isNone || decide (p.waits = []) || p.failed.isSome then none
  else
    match readWaits s p p.waits with
    | .met s' => some ((s'.forget p.agent).putPending q p { p with waits := [] })
    | .unmet s' => ifMoved s (s'.forget p.agent)
    | .wait s' => ifMoved s s'
    | .fails s' c => failRecord s' q p c

/-- WAIT_COUNTER_REREAD (R113): of a queue's record, or of the first posted one for which there is something to do. -/
def tryWaitReread (s : State) (q : Nat) : Option State := (s.pendingOf q).findSome? (rereadWaits s q)

/-- WAIT_COUNTER_REREAD (R113). -/
def execWaitCounterReread (queue : Nat) (s : State) : Result := eventResult s (tryWaitReread s queue)

/-- Launch slots of a die (R116). -/
abbrev launchSlots : Nat := 64

/-- A record posted by `launch` (R116): where a launch slot of the die is free. The fence comes first in either case. -/
def postRecord (s : State) (tag : Nat) (g : Grp) (f : FC) (a : W64) (ds : List W64) : Issue :=
  let home := dieOf g.core
  let g := g.afterOrd 2
  if (s.posted.filter (fun p => p.home = home)).length ≥ launchSlots then doneWith s tag g f.sd 1
  else
    let p : PendingRec := { raw := ds, part := g.part, home := home, least := g.prio, origin := .group tag a g.pc g.hdr }
    doneWith { s with posted := s.posted ++ [p] } tag g f.sd 0

/-- `launch` (R115, R116). The record is read once the fence's writes are performed; what a lender could not read of it is not stated
(log entry 16). -/
def execLaunch (f : FC) (s : State) : Result :=
  .next (issueControl
    { check := f.check true false false true, reads := [f.sa], writes := [f.sd], drained := true } (fun s tag g =>
      let a := g.reg f.sa.toNat
      if a.toNat % 128 ≠ 0 then .trap s (illegal 4)
      else if !g.quiet 4 then .stall s
      else
        let w := g.wordAgent tag
        match readDwords s w a 16 with
        | .trap s i => .trap s i
        | .wait s => .stall s
        | .failed s =>
          postRecord (s.forget w) tag g f a ((upTo 16).map (fun k => BitVec.ofNat 64 (Config.unstated 2 [a.toNat + 8 * k])))
        | .ok s ds => postRecord (s.forget w) tag g f a ds) s)

/-- The core is a working core of the partition (R131): until a change of its partition takes effect (R130). 0xFF is no partition
(R129), so that no core is in it for a queue with PART = 0xFF either (DEDUCED, log entry 35). -/
def State.inPart (s : State) (c p : Nat) : Bool :=
  decide (s.lanes c ≠ 0) && decide ((s.coreAt c).part = p) && decide (p ≠ 255)

/-- A walker may place something new on the core: no change of its partition is pending (R130). -/
def State.mayPlace (s : State) (c p : Nat) : Bool := s.inPart c p && (s.coreAt c).pending.isNone

/-- The cluster's four working cores are all in the partition (R128). -/
def State.clusterIn (s : State) (k p : Nat) : Bool := (upTo 4).all (fun j => s.inPart (4 * k + j) p)

/-- The placement order (R121): core 0 of every die, then core 1 of every die, and so on. -/
def placementOrder : List Nat :=
  (upTo Config.coresPerDie).flatMap (fun k => (upTo Config.dies).map (fun d => d * Config.coresPerDie + k))

/-- Register words of a task (R119). -/
def taskWords (nreg vl : Nat) : Nat := roundUp nreg 8 * roundUp vl 32

/-- The fit of a task shape on an empty full core (R120). -/
def LaunchRec.fit (r : LaunchRec) : Nat :=
  let by_ (total need : Nat) : Nat := if need = 0 then 16 else total / need
  min (min 16 (by_ Config.regWords (taskWords r.nreg r.vl))) (min (by_ Config.granules r.spad) (by_ Config.tiles r.nacc))

/-- A core meets the partition, width and L1 mode conditions of R120, taken as unfused where that is needed (R124). -/
def State.suits (s : State) (r : LaunchRec) (c : Nat) : Bool :=
  s.inPart c r.part && decide (r.vl ≤ s.vlmax c) && (!r.l1fuse || s.clusterIn (clusterOf c) r.part)

/-- The checks of R124. -/
def admissible (s : State) (r : LaunchRec) : Bool :=
  placementOrder.any (fun c => s.inPart c r.part && decide (r.vl ≤ s.vlmax c))
    && (!r.l1fuse || (upTo Config.clusters).any (fun k => s.clusterIn k r.part))
    && (decide (r.cls ≠ 0) || decide (r.lnr.total ≤ (placementOrder.filter (s.suits r)).length * r.fit))

/-- Walkers hold 64 launches with unplaced tasks (R117). -/
abbrev walkerLaunches : Nat := 64

/-- The launch still has unplaced tasks. -/
def Launch.unplaced (l : Launch) : Bool := decide (l.placed < l.total)

/-- The cores that a concurrent launch assigns its tasks to (R125). DESIGN CHOICE (log entry 35): those with a change of partition
pending only where the tasks do not fit on the others. -/
def assignable (s : State) (r : LaunchRec) : List Nat :=
  let all := placementOrder.filter (s.suits r)
  let stay := all.filter (fun c => s.mayPlace c r.part)
  if r.lnr.total ≤ stay.length * r.fit then stay else all

/-- The cores and runs that a concurrent launch assigns to its tasks (R125): one to a core around the placement order, then a
second to each, and so on; each core's runs are the lowest that no earlier task of the launch has been given. -/
def assign (s : State) (r : LaunchRec) : List Reserved :=
  let order := assignable s r
  (upTo r.lnr.total).map (fun t =>
    { ordinal := t, core := order.getD (t % order.length) 0, granule := t / order.length * r.spad })

/-- An admitted launch (R117, R125, R133). -/
def admitNext (s : State) (r : LaunchRec) : State :=
  let l : Launch := { record := r, total := r.lnr.total, reserved := if r.cls = 0 then assign s r else [] }
  { s.setLaunch s.nextLaunch l with nextLaunch := s.nextLaunch + 1 }

/-- The concurrent launch whose turn it is to hold the reservation of a partition receives it (R125). DESIGN CHOICE (log entry 35): a
launch that waits its turn has been admitted, and numbered, already. -/
def takeTurn (s : State) (part : Nat) : State :=
  let cs := s.launches.filter (fun p => p.2.record.part = part && p.2.record.cls = 0 && p.2.unplaced && !p.2.suspended)
  if s.launches.any (fun p => p.2.record.part = part && p.2.holds && p.2.unplaced) then s
  else
    let better (a b : Nat × Launch) : Nat × Launch :=
      if b.2.record.prio < a.2.record.prio || (b.2.record.prio = a.2.record.prio && b.1 < a.1) then b else a
    match cs with
    | [] => s
    | p :: t =>
      let q := t.foldl better p
      s.setLaunch q.1 { q.2 with holds := true }

/-- A launch may retire (R441, R442): its walk is exhausted, every task has retired and has been scrubbed. One without tasks retires at
admission, whatever else becomes of it (R76). -/
def Launch.over (s : State) (n : Nat) (l : Launch) : Bool :=
  decide (l.total = 0) || (!l.unplaced && decide (l.retired = l.total) && !l.suspended && !s.saved.any (fun v => v.launch = n)
    && !s.cores.any (fun c => c.2.releases.any (fun h => h.launch = n)))

/-- What cores keep for a launch is dropped when it retires (R62, R63). -/
def State.dropLaunch (s : State) (n : Nat) : State :=
  let clean (u : CoreUnit) : CoreUnit :=
    { u with blocks := u.blocks.filter (fun b => b.launch ≠ n), icache := u.icache.filter (fun c => c.1 ≠ n)
             blockPast := u.blockPast.filter (fun c => c.1 ≠ n) }
  let s := s.cores.foldl (fun s c => s.setCore c.1 (clean c.2)) s
  { s with launches := Assoc.del s.launches n }

/-- A launch retires (R442): DONE is raised, with ERR when a task was terminated. -/
def tryLaunchRetire (s : State) (n : Nat) : Option State := do
  let l ← s.launchAt n
  if !l.over s n then none
  else
    let r := l.record
    let w : Agent := { unit := unitCounter, a := 2 ^ 40, b := n, part := r.part, launch := n }
    match raiseCounter s w r.done l.error (doneFault r.origin r.part n) with
    | .wait s' => ifMoved s s'
    | .done s => some (s.dropLaunch n)

/-- LAUNCH_RETIRE (R442). -/
def execLaunchRetire (launch : Nat) (s : State) : Result := eventResult s (tryLaunchRetire s launch)

/-- A record whose waits are met is offered to admission (R101, R124); one without tasks retires at once (R76). -/
def offer (s : State) (q : Nat) (p : PendingRec) : Option State := do
  let r ← p.record
  if admissible s r then
    let s' := takeTurn ((admitNext s r).dropPending q p) r.part
    some (if r.lnr.total = 0 then (tryLaunchRetire s' s.nextLaunch).getD s' else s')
  else failRecord s q p 0x12

/-- The record is for a die's walker, has passed its waits and has not failed. -/
def PendingRec.ready (p : PendingRec) (die : Nat) : Bool :=
  p.record.isSome && decide (p.waits = []) && decide (p.home = die) && p.failed.isNone

/-- The walker of a die has room for one more launch (R117). -/
def State.walkerRoom (s : State) (die : Nat) : Bool :=
  decide ((s.launches.filter (fun l => l.2.record.home = die && l.2.unplaced)).length < walkerLaunches)

/-- A launch is admitted, or fails (R124): of those that are ready, any, as the device chooses. -/
def tryAdmission (s : State) (die : Nat) : Option State :=
  let ready := (s.fetched ++ s.posted.map (fun p => (noQueue, p))).filter (fun p => p.2.ready die)
  if ready = [] || s.root.halted || !s.walkerRoom die then none
  else
    let (k, s) := s.choose ready.length
    (ready[k]?).bind (fun p => offer s p.1 p.2)

/-- ADMISSION (R124). -/
def execAdmission (die : Nat) (s : State) : Result := eventResult s (tryAdmission s die)

end Sys2Proof.Machine
end

