-- ==== Sys2Proof/Machine/CollRead.lean ====
section
/-!
DEFINITION. What a collective walker reads at a post (R73-R80, R403, R404, R410, R413): the transfer-form loop-nest record, the
member table, the block, and the signature.
-/
namespace Sys2Proof.Machine

/-- The walker as an agent. -/
def Coll.agent (c : Coll) : Agent :=
  { unit := unitColl, a := c.launch * 2 ^ 64 + c.ordinal, b := c.id, part := c.part, launch := c.launch, gtag := c.gtag, pc := c.pc
    hdr := c.hdr }

/-- Bytes of an element by OPC and TYPE (R80, R294, R409). DESIGN CHOICE (log entry 35): an element of OPC 7 is a pair of f32, and one of
OPC 6 an entry of 8 bytes, so that a LEN which is no whole number of those fails the record. -/
def elemBytes (opc typ : Nat) : Nat := if opc = 0 then 1 else if opc = 6 ∨ opc = 7 then 8 else typeWidth typ / 8

/-- TYPE is in its OPC's column (R80, R294). -/
def xferTypeOk (opc typ : Nat) : Bool :=
  match opc with
  | 0 => decide (typ = 0)
  | 1 | 2 | 3 => decide (typ ≤ 8) || decide (typ = 10)
  | 4 | 5 => decide (typ < 8)
  | 6 => typ = 8 || typ = 9 || typ = 10 || typ = 2 || typ = 1
  | 7 => decide (typ = 8)
  | 8 => decide (typ ≤ 8)
  | _ => false

/-- The PEER and XFER blocks of a transfer-form record with `n` levels; none where one breaks R75, R78 or R80. DESIGN CHOICE (log entry
35): a PN above 2^31 (R78), and a LEN of 0 or above 2^24 (R79), for which no outcome is stated, fail the record. -/
def templateOf (ds : List W64) (n : Nat) : Option Template :=
  let w (off : Nat) : Nat := wordAt32 ds off
  let i (off : Nat) : Int := toSigned 32 (w off)
  let ops := (ds.getD 23 0).toNat
  let t : Template :=
    { peers := (upTo n).map (fun l => (i (64 + 16 * l), i (68 + 16 * l), i (72 + 16 * l), w (76 + 16 * l)))
      srcBase := ds.getD 16 0, dstBase := ds.getD 17 0
      srcStrides := (upTo n).map (fun l => i (144 + 4 * l)), dstStrides := (upTo n).map (fun l => i (160 + 4 * l))
      len := w 176, dstRank := i 180, opc := bitsOf ops 0 8, typ := bitsOf ops 8 4, lbid := bitsOf ops 16 12 }
  let stray := (upFrom n (4 - n)).any (fun l =>
    (upTo 4).any (fun k => w (64 + 16 * l + 4 * k) ≠ 0) || decide (w (144 + 4 * l) ≠ 0) || decide (w (160 + 4 * l) ≠ 0))
  if stray || t.peers.any (fun p => p.2.2.2 = 0 || decide (p.2.2.2 > 2 ^ 31)) || decide (t.len = 0) || decide (t.len > 2 ^ 24)
      || decide (bitsOf ops 12 4 ≠ 0) || decide (bitsOf ops 28 36 ≠ 0) || !xferTypeOk t.opc t.typ
      || (decide (t.opc ≠ 8) && decide (t.lbid ≠ 0)) || decide (t.len % elemBytes t.opc t.typ ≠ 0) then none
  else some t

/-- One byte into a CRC-32C (Castagnoli, reflected). -/
def crcBits (c : Nat) : Nat → Nat
  | 0 => c
  | n + 1 => crcBits (if c % 2 = 1 then Nat.xor (c / 2) 0x82F63B78 else c / 2) n

/-- CRC-32C of bytes (R404). -/
def crc32c (bs : List Byte) : Nat :=
  Nat.xor (bs.foldl (fun c b => crcBits (Nat.xor c b.toNat) 8) 0xFFFFFFFF) 0xFFFFFFFF

/-- How the reading of a post ends: `bad` with the COLLDESC reason (R413). -/
inductive CollRead where
  | ok (s : State) (c : Coll)
  | bad (s : State) (reason : Nat) (c : Coll)
  | wait (s : State)

/-- What follows where a reading went well. -/
def CollRead.andThen (r : CollRead) (k : State → Coll → CollRead) : CollRead :=
  match r with
  | .ok s c => k s c
  | r => r

/-- What follows a reading of dwords; one that cannot be read fails the collective for a reason (R413). -/
def readFor (s : State) (c : Coll) (va : W64) (n reason : Nat) (k : State → List W64 → CollRead) : CollRead :=
  match readDwords s c.agent va n with
  | .ok s ds => k s ds
  | .trap s _ | .failed s => .bad s reason c
  | .wait s => .wait s

/-- The loop-nest record of a post (R75, R413). -/
def readWalk (s : State) (c : Coll) : CollRead :=
  if c.lnr.toNat % 64 ≠ 0 then .bad s 1 c
  else
    readFor s c c.lnr 24 1 (fun s ds =>
      match lnrOf ds 1 with
      | none => .bad s 1 c
      | some l =>
        match templateOf ds l.levels.length with
        | none => .bad s 1 c
        | some t => .ok s { c with walk := l, tmpl := some t })

/-- The four half-words of a dword. -/
def quarters (d : W64) : List Nat := (upTo 4).map (fun k => bitsOf d.toNat (16 * k) 16)

/-- A post whose member table cannot be read: the COLLID that its event carries is not stated (R413, log entry 16). -/
def Coll.untitled (c : Coll) : Coll := { c with collid := Config.unstated 18 [c.table.toNat] % 2 ^ 16 }

/-- The first two dwords of a post's member table, with its COLLID noted (R403, R413). -/
def readTitle (s : State) (c : Coll) (k : State → Coll → List W64 → CollRead) : CollRead :=
  if c.table.toNat % 64 ≠ 0 then .bad s 2 c.untitled
  else readFor s c.untitled c.table 2 2 (fun s hd => k s { c with collid := bitsOf (hd.getD 0 0).toNat 32 16 } hd)

/-- The member table of a post (R403, R413): this die's rank in it. -/
def readMembers (s : State) (c : Coll) : CollRead :=
  readTitle s c (fun s c hd =>
    let d := (hd.getD 0 0).toNat
    let n := bitsOf d 0 17
    if n = 0 ∨ n > 65536 ∨ bitsOf d 17 15 ≠ 0 ∨ bitsOf d 48 16 ≠ 0 ∨ hd.getD 1 0 ≠ 0 then .bad s 2 c
    else
      readFor s c (c.table + 16) (ceilDiv n 4) 2 (fun s ds =>
        let ms := ((ds.flatMap quarters).take n).map (fun h => (h % 2 ^ 13, h / 2 ^ 13))
        let c := { c with members := ms }
        if !decide ms.Nodup then .bad s 2 c
        else
          match ms.findIdx? (fun m => m = (s.fabric.device, c.die)) with
          | none => .bad s 3 c
          | some r => .ok s { c with rank := r }))

/-- A post whose loop-nest record has failed, with the COLLID that its event carries (R413). -/
def CollRead.titled : CollRead → CollRead
  | .bad s reason c =>
    (match readTitle s c (fun s c _ => .bad s reason c) with
     | .bad s _ c => .bad s reason c
     | r => r)
  | r => r

/-- A block suits the transfer that names it (R410). -/
def blockSuits (b : Block) (t : Template) : Bool :=
  decide (b.nin = 2) && decide (b.nout = 1)
    && (if b.pair then (t.typ = 3 || t.typ = 7) && decide (t.len % 8 = 0) else decide (t.typ ≤ 8))

/-- The block that a transfer names (R91, R404, R410), with the CRC-32C of its entry. -/
def readBlock (s : State) (c : Coll) (t : Template) : CollRead :=
  let at_ := c.btbase + BitVec.ofNat 64 (256 * t.lbid)
  let bytes (ds : List W64) (n : Nat) : List Byte := (ds.flatMap (fun d => toBytes 8 d.toNat)).take n
  if t.lbid ≥ c.btcount then .bad s 4 c
  else
    readFor s c at_ 1 4 (fun s hd =>
      let h := (hd.headD 0).toNat
      if (headerReason h).isSome then .bad s 4 c
      else
        let len := bitsOf h 0 6
        readFor s c (at_ + 8) (ceilDiv len 2) 4 (fun s ds => readFor s c (at_ + 136) (if bitOf h 18 then 1 else 0) 4 (fun s ids =>
          let ws := ((ds.flatMap (fun d => [d.toNat % 2 ^ 32, d.toNat / 2 ^ 32])).take len).map laneWord
          let ident := (ids.headD 0).toNat
          let b := blockOf h (if bitOf h 20 then ident else ident % 2 ^ 32) ws
          if (b.wordsReason 0 [] ws).isSome || !blockSuits b t then .bad s 4 c
          else
            let crc := crc32c (bytes (hd ++ ds) (8 + 4 * len) ++ bytes ids 8)
            .ok s { c with block := some b, sig := ⟨crc, t.opc, t.typ, t.len⟩ })))

/-- The signature of a post (R404). -/
def readSignature (s : State) (c : Coll) : CollRead :=
  match c.tmpl with
  | none => .bad s 1 c
  | some t => if t.opc = 8 then readBlock s c t else .ok s { c with sig := ⟨0, t.opc, t.typ, t.len⟩ }

/-- The instance of a post (R403). -/
def Coll.key (c : Coll) : Nat × Nat × W64 × Nat := (c.die, c.collid, c.inst, c.members.length)

/-- Everything that the walker reads and checks before it signs (R405, R413): the lowest reason that applies. -/
def readColl (s : State) (c : Coll) : CollRead :=
  (readWalk s c).titled.andThen (fun s c => (readMembers s c).andThen (fun s c => (readSignature s c).andThen (fun s c =>
    if s.postedColls.contains c.key then .bad s 5 c else .ok s c)))

end Sys2Proof.Machine
end

