-- ==== Sys2Proof/Machine/Rank.lean ====
section
/-!
DEFINITION. Rank-coded mode (R275-R294): `vrank`, `vrkmerge`, `vrkpack`, `unrank`, the loading of the tables, and the merging
of keyed lists.
-/
namespace Sys2Proof.Machine

/-- An entry of a keyed list (R276): key bits and rank entry. -/
structure Ranked where
  key : Nat
  entry : Nat
  deriving DecidableEq, Repr

/-- Key p is greater than key q, by value of type `t` (R277). -/
def keyAbove (t p q : Nat) : Bool :=
  if isIntCode t then decide (intValue t q < intValue t p) else valueLt (readFloat t q) (readFloat t p)

/-- `rank_before` of R277. -/
def rankBefore (t : Nat) (p q : Ranked) : Bool :=
  if keyAbove t p.key q.key then true
  else if keyAbove t q.key p.key then false
  else decide (rankIndex p.entry < rankIndex q.entry)

/-- A NaN key, which never enters a list (R277). -/
def nanKey (t key : Nat) : Bool := !isIntCode t && (readFloat t key).isNan

/-- Two entries are duplicates: equal keys and equal indices (R277). -/
def duplicates (t : Nat) (p q : Ranked) : Bool :=
  !keyAbove t p.key q.key && !keyAbove t q.key p.key && decide (rankIndex p.entry = rankIndex q.entry)

/-- What is kept of two duplicates: bit 15 clear if either has it clear (R277). Between +0 and −0 with equal bits 15 the manual
names neither: a free choice, the same whichever operand each came from (log entry 16). -/
def keptOf (p q : Ranked) : Ranked :=
  if p.key = q.key then ⟨p.key, min p.entry q.entry⟩
  else if p.entry < q.entry then p
  else if q.entry < p.entry then q
  else
    let least := Config.unstated 8 [min p.key q.key, max p.key q.key, p.entry] % 2 = 0
    ⟨if least then min p.key q.key else max p.key q.key, p.entry⟩

/-- An entry put into a list in order, a duplicate merged. -/
def insertRanked (t : Nat) (x : Ranked) : List Ranked → List Ranked
  | [] => [x]
  | y :: ys =>
    if duplicates t x y then keptOf y x :: ys
    else if rankBefore t x y then x :: y :: ys
    else y :: insertRanked t x ys

/-- Entries in order, without duplicates and NaN keys (R277, R284). -/
def sortRanked (t : Nat) (xs : List Ranked) : List Ranked :=
  (xs.filter (fun x => !nanKey t x.key)).foldl (fun l x => insertRanked t x l) []

/-- The filler of a list (R281, R284). -/
def noEntry : Ranked := ⟨0, emptyEntry⟩

/-- The first `k` of a list, filled up to `k` (R281, R284). -/
def fillTo (k : Nat) (xs : List Ranked) : List Ranked := (xs.take k) ++ List.replicate (k - xs.length) noEntry

/-- THE MERGE of two lists, each taken up to its first empty entry, at capacity `k` (R284). -/
def mergeRanked (t k : Nat) (xs ys : List Ranked) : List Ranked :=
  let live (l : List Ranked) : List Ranked := l.takeWhile (fun x => x.entry ≠ emptyEntry)
  fillTo k (sortRanked t (live xs ++ live ys))

/-- Registers of the key group of a pair operand (R276). -/
def Grp.keySpan (g : Grp) (c w : Nat) : Nat := powerAbove (ceilDiv (c * w) (32 * g.regWords))
/-- Registers of the index group of a pair operand (R276). -/
def Grp.indexSpan (g : Grp) (c : Nat) : Nat := powerAbove (ceilDiv (c * 16) (32 * g.regWords))

/-- The check of a pair operand (R276). -/
def Grp.pairTrap (g : Grp) (x c w : Nat) : Option TrapInfo :=
  let k := g.keySpan c w
  if x % k ≠ 0 then some (illegal 4) else if x + k + g.indexSpan c - 1 ≥ g.nreg then some (illegal 5) else none

/-- The list that a pair operand holds (R276). -/
def Grp.pairList (g : Grp) (x c w : Nat) : List Ranked :=
  (upTo c).map (fun j => ⟨g.elem x w j, g.elem (x + g.keySpan c w) 16 j⟩)

/-- A list written to a pair operand of capacity `c` (R276). -/
def Grp.putPair (g : Grp) (x c w : Nat) (l : List Ranked) : Grp :=
  let ps := (upTo l.length).zip l
  let h := g.putAll x w (ps.map (fun p => (p.1, p.2.key)))
  h.putAll (x + g.keySpan c w) 16 (ps.map (fun p => (p.1, p.2.entry)))

/-- k of `vrank`: IMM16[11:4] + 1 (R280). -/
def rankCount (v : VView) : Nat := v.imm / 16 % 256 + 1
/-- k or n of `vrkmerge`, `vrkpack` and `unrank`: IMM16[14:4] + 1 (R282, R291). -/
def listCount (v : VView) : Nat := v.imm / 16 % 2048 + 1

/-- LCUT (R278). -/
def Grp.lcut (g : Grp) : Nat := let x := bitsOf g.rankcfg.toNat 0 12; if x = 0 then 2048 else x
/-- RKOFF of RANKCFG (R278). -/
def Grp.rkoff (g : Grp) : Nat := bitsOf g.rankcfg.toNat 16 11
/-- IDXBASE (R278). -/
def Grp.idxbase (g : Grp) : Nat := bitsOf g.rankcfg.toNat 32 15

/-- The magnitude of a float of type `t`: its sign bit cleared (R281). -/
def clearSign (t x : Nat) : Nat := x % 2 ^ (typeWidth t - 1)

/-- `vrank` at vector issue (R281). -/
def Grp.rank (g : Grp) (v : VView) (mag : Bool) : Grp :=
  let t := g.typeOf v
  let w := typeWidth t
  let k := rankCount v
  let act := g.activeList v.mreg
  let below := act.filter (fun e => e < g.vtail)
  let x (e : Nat) : Nat := g.elem v.va w e
  let nans := below.filter (fun e => nanKey t (x e))
  let h := g.putValid v nans
  if act = [] then h
  else
    let entries := (below.filter (fun e => !nanKey t (x e))).map (fun e =>
      (⟨if mag then clearSign t (x e) else x e, (g.idxbase + e) + (if mag && bitOf (x e) (w - 1) then 0x8000 else 0)⟩ : Ranked))
    (h.putPair v.vd k w (fillTo k (sortRanked t entries))).vectorFlags
      (if below.any (fun e => !isIntCode t && (readFloat t (x e)).sig) then flNV else 0)

/-- The checks of `vrank` when it leaves the queue (R280). -/
def Grp.rankTrap (g : Grp) (v : VView) : Option TrapInfo :=
  let w := typeWidth (g.typeOf v)
  let k := rankCount v
  firstTrap [lowestTrap [g.pairTrap v.vd k w, g.spanTrap v.va (g.span w g.vl)],
    if g.vl > 256 ∨ k > g.lcut ∨ g.idxbase + g.vl > 0x7FFF then some (illegal 4) else none]

/-- The mask m0 has a set bit: it is not empty. -/
def Grp.m0Empty (g : Grp) : Bool := decide (g.mask 0 = 0)

/-- `vrkmerge` at vector issue (R284). -/
def effVrkmerge (g : Grp) (f : FV) (_ops : List W64) : Grp :=
  let v := f.view
  let t := g.typeOf v
  let w := typeWidth t
  let k := listCount v
  if g.m0Empty then g
  else g.putPair v.vd k w (mergeRanked t k (g.pairList v.va k w) (g.pairList v.vb k w))

/-- `vrkpack` at vector issue (R283). -/
def effVrkpack (g : Grp) (f : FV) (_ops : List W64) : Grp :=
  let v := f.view
  let k := listCount v
  let es := beforeEmpty ((g.pairList v.va k (typeWidth (g.typeOf v))).map (fun x => x.entry))
  if g.m0Empty then g else g.putAll v.vd 16 ((upTo k).map (fun j => (j, es.getD j emptyEntry)))

/-- The checks of `vrkmerge` and `vrkpack` when they leave the queue (R282): `pack` has a plain list in VD and no VB. -/
def Grp.keyedTrap (g : Grp) (v : VView) (pack : Bool) : Option TrapInfo :=
  match typeInForce g.fmt v.ty v.ew with
  | none => some (illegal 7)
  | some t =>
    let w := typeWidth t
    let k := listCount v
    if !([8, 9, 10, 2, 1] : List Nat).contains t then some (illegal 7)
    else firstTrap [lowestTrap (if pack then [g.spanTrap v.vd (g.span 16 k), g.pairTrap v.va k w]
          else [g.pairTrap v.vd k w, g.pairTrap v.va k w, g.pairTrap v.vb k w]),
        if k > g.lcut then some (illegal 4) else none]

/-- `vrank` at vector issue (R281). -/
def effVrank (g : Grp) (f : FV) (_ops : List W64) : Grp := g.rank f.view false
/-- `vrank.mag` at vector issue (R281). -/
def effVrankMag (g : Grp) (f : FV) (_ops : List W64) : Grp := g.rank f.view true

/-- `unrank` at vector issue (R292). -/
def effUnrank (g : Grp) (f : FV) (_ops : List W64) : Grp :=
  let v := f.view
  let t := g.typeOf v
  let n := listCount v
  let es := beforeEmpty ((upTo n).map (fun r => g.elem v.va 16 r))
  let rs := (upTo es.length).zip es
  g.loop v (typeWidth t) (fun e =>
    match rs.find? (fun p => rankIndex p.2 = g.idxbase + e) with
    | none => (0, 0)
    | some (r, x) =>
      if e ≥ g.vtail then (0, 0)
      else
        let y := readFloat 9 (FMap.get tableReset g.recon (g.rkoff + r)).toNat
        narrowFloat t (g.rmOf v) false (if bitOf x 15 then y.negate else y))

/-- The checks of `unrank` when it leaves the queue (R291). -/
def Grp.unrankTrap (g : Grp) (v : VView) : Option TrapInfo :=
  let n := listCount v
  firstTrap [lowestTrap [g.spanTrap v.vd (g.span (typeWidth (g.typeOf v)) g.vl), g.spanTrap v.va (g.span 16 n)],
    if n > g.lcut ∨ g.rkoff + n > 2048 then some (illegal 4) else none]

/-- `vrank` (R280). -/
def execVrank (f : FV) (s : State) : Result := .next (issueVector (.vrank f) {} s)
/-- `vrank.mag` (R280). -/
def execVrankMag (f : FV) (s : State) : Result := .next (issueVector (.vrankMag f) {} s)
/-- `vrkmerge` (R282). -/
def execVrkmerge (f : FV) (s : State) : Result := .next (issueVector (.vrkmerge f) {} s)
/-- `vrkpack` (R282). -/
def execVrkpack (f : FV) (s : State) : Result := .next (issueVector (.vrkpack f) {} s)
/-- `unrank` (R291). -/
def execUnrank (f : FV) (s : State) : Result := .next (issueVector (.unrank f) {} s)

/-- The words that load a table (R286): attenuation or reconstruction. -/
def tableWord : Instr → Option (Bool × FI)
  | .ldattAtt f => some (true, f)
  | .ldattRec f => some (false, f)
  | _ => none

/-- The address of a table (R286). -/
def tableAddr (f : FI) (ops : List W64) : W64 := addrPlus (ops.headD 0) f.imm 1

/-- The pieces of a table: 4,096 bytes (R286). -/
def tablePieces (a : W64) : List (Nat × Piece) := (piecesFrom a 64 16 64).map (fun q => (0, q))

/-- Sectors of a table (R286, R322). -/
abbrev tableSectors : Nat := 128

/-- The probe of a table load (R286). -/
def probeTable (s : State) (g : Grp) (f : FI) (ops : List W64) : Probed :=
  let a := tableAddr f ops
  if a.toNat % 64 ≠ 0 then .trap s (alignTrap a) else probePieces g.part s [] [] (tablePieces a)

/-- A pass of the group older than `id` that may still read the attenuation table (R286). -/
def Grp.rankPasses (g : Grp) (id : Nat) : Bool :=
  g.flights.any (fun f => f.entry.id < id && (match f.entry.instr with | .rkacc _ => true | _ => false))

/-- A committed table load may start (R148, R286). -/
def tableReady (g : Grp) (fl : Flight) : Bool :=
  let id := fl.entry.id
  !g.rankPasses id && fl.todo.all (fun a => !g.olderAccess id a)

/-- A table with the f16 values that its pieces hold (R286). -/
def tableFrom (xs : List Nat) : FMap (BitVec 16) :=
  let n := joinPieces ((piecesFrom 0 64 16 64).zip xs)
  (upTo 2048).foldl (fun m i => FMap.set tableReset m i (BitVec.ofNat 16 (bitsOf n (16 * i) 16))) []

/-- An older load of the same table is under way: it leaves its table first (R286). -/
def Grp.olderTable (g : Grp) (id : Nat) (att : Bool) : Bool :=
  g.flights.any (fun f => f.entry.id < id && (match tableWord f.entry.instr with | some (a, _) => a == att | none => false))

/-- A table load under way ends: its whole table is read and replaces the old one, and LD returns (R286). -/
def finishTable (s : State) (tag : Nat) (g : Grp) (fl : Flight) : Option State := do
  let (att, f) ← tableWord fl.entry.instr
  let e := fl.entry
  let w := g.agent tag unitMatrix e.id e.pc e.hdr
  if g.olderTable e.id att then none else
  match readPieces w (fun s => g.accessRead s e.id) (fl.vals.map (fun v => (v.1, v.2.1))) s 0 fl.todo (List.replicate 64 16) with
  | none => ifMoved s (fetchLeased w s fl.todo).1
  | some (s, xs) =>
    let g := if att then { g with att := tableFrom xs, attbase := tableAddr f e.ops }
      else { g with recon := tableFrom xs, recbase := tableAddr f e.ops }
    some ((s.setGrp tag (g.complete e)).forget w)

/-- One piece of a table read early, by a turn of the agenda (log entry 1). -/
def earlyTable (s : State) (tag : Nat) (g : Grp) (fl : Flight) (nth : Nat) : Option State := do
  let a ← fl.todo[nth]?
  match readAt s (g.agent tag unitMatrix fl.entry.id fl.entry.pc fl.entry.hdr) a.va a.size a.target with
  | .ok s x => some (s.setGrp tag (g.setFlight { fl with vals := (nth, g.accessRead s fl.entry.id a x, 0) :: fl.vals }))
  | _ => none

/-- A table load enters the queue (R286). -/
def issueTable (i : Instr) (f : FI) (s : State) : Result :=
  .next (issueVector i { reads := [f.sa], path := some .ld, memory := true } s)

/-- `ldatt.att` (R286). -/
def execLdattAtt (f : FI) (s : State) : Result := issueTable (.ldattAtt f) f s
/-- `ldatt.rec` (R286). -/
def execLdattRec (f : FI) (s : State) : Result := issueTable (.ldattRec f) f s

/-- A keyed list in memory (R294): entries of 8 bytes, up to the first that is empty or has a stray bit. -/
def keyedList (t : Nat) : List Nat → List Ranked
  | [] => []
  | x :: rest =>
    let key := bitsOf x 0 32
    let e := bitsOf x 32 16
    if bitsOf x 48 16 ≠ 0 ∨ (typeWidth t = 16 ∧ key ≥ 2 ^ 16) ∨ e = emptyEntry then []
    else ⟨key, e⟩ :: keyedList t rest

/-- RANK-MERGE of R294: the destination list and the arriving list, as their 8-byte entries. -/
def rankMerge (t : Nat) (dst src : List Nat) : List Nat :=
  (mergeRanked t dst.length (keyedList t dst) (keyedList t src)).map (fun x => x.key + 2 ^ 32 * x.entry)

end Sys2Proof.Machine
end

