-- ==== Sys2Proof/Machine/System.lean ====
section
/-!
DEFINITION. `trap` and `eret` (R433, R434), the capability list and `getcap` (R23-R30), the monitor units (R448-R450).
-/
namespace Sys2Proof.Machine

/-- `trap` (R433): the group stops at the next clause header. -/
def execTrap (f : FI) (s : State) : Result :=
  .next (issueControl { check := f.check false false 0xFFFF, drained := true } (fun s tag g =>
    .gone (takeTrap s tag { cause := 0x0A, detail := (f.imm.extractLsb' 0 16).toNat } g.nextClause g.nextClause)) s)

/-- `eret` (R434). -/
def execEret (f : FO) (s : State) : Result :=
  .next (issueControl { check := f.check, level := .supervisor, drained := true } (fun s tag g =>
    if g.tact then .gone (s.setGrp tag { g.returnFromTrap with nextId := g.nextId + 1 }) else .trap s (illegal 4)) s)

/-- The records of the capability list (R25): kind, and the dwords after the header; their order is the model's (log entry 4). -/
def capRecords (s : State) : List (Nat × List Nat) :=
  let w (c : Nat) : Nat := s.lanes c
  let count (n : Nat) : Nat := ((upTo Config.cores).filter (fun c => w c = n)).length
  let octet (f : Nat → Nat) (a : Nat) : Nat := ((upTo 8).map (fun k => f (a + k) * 256 ^ k)).sum
  let port (p : Nat) : Nat := 3 + (FMap.get {} s.fabric.ports p).rate % 4 * 4
  [ (1, [0x0008 + Config.stepping % 256 * 2 ^ 16 + s.dieMask % 256 * 2 ^ 24, 0, 3600000])
  , (2, (count 32 + count 24 * 2 ^ 16 + count 0 * 2 ^ 32) :: (upTo 128).map (fun k => octet w (8 * k)))
  , (3, [3 + Config.queues * 2 ^ 16])
  , (4, [0xE0 + s.hostLink.1 % 256 * 2 ^ 8 + s.hostLink.2 % 256 * 2 ^ 16 + 2 ^ 24 + 2 ^ 25])
  , (5, [octet port 0, octet port 8])
  , (6, [2048, 1572864, 32 + 9600 * 2 ^ 16])
  , (7, [0x3E11, 0x10000BE11])
  , (8, [2048 + 2048 * 2 ^ 16])
  , (9, [3 + 50000 * 2 ^ 32, 100000000]) ]

/-- Records laid out from an offset, each with its header (R23, R24), of version 1. -/
def capLayout : Nat → List (Nat × List Nat) → List Nat
  | _, [] => []
  | off, (id, ds) :: rest =>
    let len := 8 * (ds.length + 1)
    let next := if rest.isEmpty then 0 else off + len
    (id + 2 ^ 24 + len * 2 ^ 32 + next * 2 ^ 48) :: ds ++ capLayout (off + len) rest

/-- Length of the list in bytes (R25). -/
def capLength (s : State) : Nat := 8 * (capLayout 0 (capRecords s)).length

/-- The dword at an offset of the capability space; zero at and beyond the list's length (R28, R30). The device record
holds the length in its dword 2 (R25). -/
def capDword (s : State) (off : Nat) : Nat :=
  if off = 16 then capLength s else (capLayout 0 (capRecords s)).getD (off / 8) 0

/-- `getcap` (R29, R30). -/
def execGetcap (f : FI) (s : State) : Result :=
  .next (issueControl { check := f.check true true 0xFFFFFFFF, reads := [f.sa], writes := [f.sd] } (fun s tag g =>
    let off := (g.reg f.sa.toNat + f.imm.zeroExtend 64).toNat
    if off % 8 ≠ 0 then .trap s (illegal 4)
    else .done (s.setGrp tag (g.writeReg f.sd.toNat (BitVec.ofNat 64 (capDword s off))))) s)

/-- A configuration written (R448, R449): CLR resets the statistics and reads 0. -/
def Monitor.configure (m : Monitor) (x : W64) : Monitor :=
  let m := if x.getLsbD 62 then {} else m
  { m with config := x &&& ~~~(0x4000000000000000 : W64) }

/-- A configuration word with a reserved SRC or a nonzero reserved bit (R450). -/
def badMonitor (x : W64) : Bool :=
  let src := bitsOf x.toNat 40 8
  decide (src = 0 ∨ src > 12) || decide (bitsOf x.toNat 56 6 ≠ 0) || decide (bitsOf x.toNat 32 8 ≠ 0)

/-- `moncfg` (R450). -/
def execMoncfg (f : FS) (s : State) : Result :=
  .next (issueControl
    { check := f.check true true true false, level := .supervisor, reads := [f.sa, f.sb], writes := [f.sd], drained := true }
    (fun s tag g =>
      let a := (g.reg f.sa.toNat).toNat
      let x := g.reg f.sb.toNat
      let status (s : State) (k : Nat) : Issue := .done (s.setGrp tag (g.writeReg f.sd.toNat (BitVec.ofNat 64 k)))
      let (unit, die) := (bitsOf a 0 6, bitsOf a 8 3)
      if !diePresent s.dieMask die then status s 1
      else if a ≠ unit + die * 2 ^ 8 || badMonitor x then status s 2
      else status (s.setMonitor die unit ((s.monitor die unit).configure x)) 0) s)

/-- Word `k` of a monitor unit (R450). -/
def Monitor.word (m : Monitor) (k : Nat) : Nat :=
  match k with
  | 0 => m.min
  | 1 => m.max
  | 2 => m.count
  | 3 => m.config.toNat
  | k => FMap.get 0 m.bins (k - 4)

/-- `monread` (R450). -/
def execMonread (f : FS) (s : State) : Result :=
  .next (issueControl
    { check := f.check true true true false, level := .supervisor, reads := [f.sa, f.sb], writes := [f.sd], drained := true }
    (fun s tag g =>
      let a := (g.reg f.sa.toNat).toNat
      let k := (g.reg f.sb.toNat).toNat
      let (unit, die) := (bitsOf a 0 6, bitsOf a 8 3)
      if a ≠ unit + die * 2 ^ 8 || !diePresent s.dieMask die || k > 35 then .trap s (illegal 4)
      else .done (s.setGrp tag (g.writeReg f.sd.toNat (BitVec.ofNat 64 ((s.monitor die unit).word k))))) s)

/-- Sources whose samples are recorded with the event of the model that makes them (R448): all but the occupancy of a request queue,
which the model does not hold. -/
def sampledByEvent (src : Nat) : Bool := decide (src ≠ 2)

/-- One sample of the occupancy of a request queue recorded by an enabled unit (R448, R449): its value is the device's (log entry 18). -/
def tryMonitorSample (s : State) (die unit : Nat) (value : W64) : Option State :=
  let m := s.monitor die unit
  if diePresent s.dieMask die && unit < 64 && m.on && !sampledByEvent m.src then
    some (s.setMonitor die unit (m.sample value.toNat))
  else none

/-- MONITOR_SAMPLE (R449). -/
def execMonitorSample (die unit : Nat) (value : BitVec 64) (s : State) : Result :=
  eventResult s (tryMonitorSample s die unit value)

/-- ECC_CORRECTED (R426): the monitors of the die count it, and nothing else changes. -/
def execEccCorrected (die : Nat) (s : State) : Result :=
  eventResult s (if diePresent s.dieMask die then some (sampleAll s die 11 none none (some 1)) else none)

/-- A die is due to publish: its period of 256 cycles has passed (R134). The device's clock ticks by steps that span more than
one period, so that the model publishes at any turn (log entry 2). -/
def publishLevel (s : State) (die occupancy : Nat) : State :=
  let level := min 7 (occupancy / 8)
  let s := s.setDie die { s.dieAt die with congestion := level }
  let s := sampleAll s die 3 none none (some level)
  (upTo Config.coresPerDie).foldl (fun s k =>
    let c := die * Config.coresPerDie + k
    let ask := (s.groupsOf c).filter (fun g => g.memoryBound)
    let order := sortBy Grp.before ask
    let u := s.coreAt c
    s.setCore c { u with permitted := (order.take (congestionCap level)).map (fun g => g.tag) }) s

/-- CONGESTION_PUBLISH (R134, R136): the level, its samples, and each core's permitted set. -/
def execCongestionPublish (die occupancy : Nat) (s : State) : Result :=
  eventResult s (if diePresent s.dieMask die then some (publishLevel s die occupancy) else none)

end Sys2Proof.Machine
end

