-- ==== Sys2Proof/Machine/Remote.lean ====
section
/-!
DEFINITION. The target's side of the fabric (R357-R359, R366): the window of sequence numbers seen, and the expansion of an arriving
request into element accesses, each performed by a turn of its own.
-/
namespace Sys2Proof.Machine

/-- Where a sequence number lies against what a destination remembers of its source (R366). -/
inductive Arrival where
  | fresh
  /-- marked seen, with its answer if that has been made -/
  | again (answer : Option Packet)
  | below
  deriving DecidableEq, Repr

/-- Sequence numbers that a window spans (R366). -/
abbrev windowSize : Nat := 65536

/-- How far a sequence number lies behind the window's top, modulo 2^32; 0 or less than nothing ahead of it. -/
def Window.behind (w : Window) (seq : Nat) : Nat := (w.top + 2 ^ 32 - seq % 2 ^ 32) % 2 ^ 32

/-- A number at the top or ahead of it (R366). -/
def Window.ahead (w : Window) (seq : Nat) : Bool := decide (w.behind seq = 0) || decide (w.behind seq ≥ 2 ^ 31)

/-- What a window says of an arriving number (R366). -/
def Window.look (w : Window) (seq : Nat) : Arrival :=
  if w.ahead seq then .fresh
  else if w.behind seq > windowSize then .below
  else
    match w.seen.find? (fun p => p.1 = seq % 2 ^ 32) with
    | some p => .again p.2
    | none => .fresh

/-- A window with a number marked seen; what falls below it is forgotten (R366). -/
def Window.mark (w : Window) (seq : Nat) (answer : Option Packet) : Window :=
  let w' : Window := if w.ahead seq then { w with top := (seq + 1) % 2 ^ 32 } else w
  let kept := w.seen.filter (fun p => p.1 ≠ seq % 2 ^ 32 && decide (w'.behind p.1 ≤ windowSize))
  { w' with seen := kept ++ [(seq % 2 ^ 32, answer)] }

/-- What this device remembers of a source. -/
def State.window (s : State) (src : Nat) : Window := FMap.get {} s.fabric.windows src

/-- `s` with a number of a source marked seen (R366). -/
def State.markSeen (s : State) (src seq : Nat) (answer : Option Packet) : State :=
  { s with fabric := { s.fabric with windows := FMap.set {} s.fabric.windows src ((s.window src).mark seq answer) } }

/-- A packet dropped, and counted in the monitors (R357, R408). -/
def State.drop (s : State) : State := s.count 12 none (some 1)

/-- An answer sent, and kept for requests that come again (R366). -/
def State.answer (s : State) (src seq : Nat) (p : Packet) : State := (s.markSeen src seq (some p)).transmit (.packet p)

/-- What becomes of a number that has arrived before (R366): its answer is sent again, or nothing is. -/
def State.again (s : State) : Option Packet → State
  | some p => s.transmit (.packet p)
  | none => s

/-- The operation of a request packet (R357): an atomic by its FN of 0x43 when it is a T3 access, of 0x4A otherwise (log entry
17). -/
def packetOp (p : Packet) : Option MemOp :=
  match p.kind with
  | 1 => some .load
  | 2 => some .store
  | 3 =>
    let fn :=
      if p.leased then some p.fn
      else (match p.fn with | 0 => some 0 | 1 => some 1 | 2 => some 3 | 3 => some 5 | 4 => some 6 | 5 => some 7 | _ => none)
    (match fn with | some n => if n < 8 then some (.atomic n p.u p.ret) else none | none => none)
  | 4 => some .cas
  | _ => none

/-- The answer of a request carries data (R357, R359). -/
def MemOp.answers : MemOp → Bool
  | .load | .cas => true
  | .atomic _ _ ret => ret
  | _ => false

/-- A value of a packet by the place of its element in MASK. -/
def packetAt (p : Packet) (l : List Nat) (e : Nat) : Nat := l.getD (p.mask.idxOf e) 0

/-- The partition that serves a fabric tag: the lowest-numbered one that carries it (R358). -/
def State.servingPart (s : State) (ftag : Nat) : Option Nat :=
  if ftag = 0 then none else (s.parts.find? (fun p => p.2.pftag = ftag)).map Prod.fst

/-- The target of an element in a partition, or why it fails (R359): ATS and PRI are never used. -/
def partTarget (s : State) (part : Nat) (va : W64) (kind : AccessKind) : Except Nat Target × State :=
  match findLeaf s part va with
  | (.leaf l, s) =>
    if l.part ≠ part then (.error 2, s)
    else if !allowed l kind then (.error 3, s)
    else if l.tier = 3 ∨ l.tier = 4 then (.error 4, s)
    else (.ok (l.target va), { s with mem := markLeaf s.mem l kind })
  | (_, s) => (.error 2, s)

/-- The target of an element under a lease (R371): the region at the lender. An offset past its end is no part of it. -/
def leaseTarget (s : State) (p : Packet) (va : W64) : Except Nat Target :=
  match s.leases.find? (fun e => !e.borrower && decide (e.number = p.ftag) && decide (e.peer = p.src)) with
  | some e =>
    if !(e.state = .lent ∨ e.state = .reclaiming) then .error 6
    else
      let tier := bitsOf e.base.toNat 58 3
      let a := bitsOf e.base.toNat 29 23 * 2 ^ 29 + va.toNat
      if va.toNat < e.gran * 2 ^ 29 && frameNames s.dieMask tier a then .ok (.phys (frameAddr tier a)) else .error 2
  | none => .error 6

/-- Where an element of a request is performed, or why it fails (R359, R371). -/
def requestTarget (s : State) (p : Packet) (va : W64) (kind : AccessKind) : Except Nat Target × State :=
  if p.leased then (leaseTarget s p va, s)
  else
    match s.servingPart p.ftag with
    | none => (.error 1, s)
    | some part => partTarget s part va kind

/-- A request as it is performed, in place of the one with its source and number. -/
def State.setServing (s : State) (v : Serving) (new : Option Serving) : State :=
  { s with fabric := { s.fabric with serving := s.fabric.serving.filterMap (fun w => if w = v then new else some w) } }

/-- One element of a request performed, or failed (R359); none while its unit is locked (R317). -/
def serveElement (s : State) (v : Serving) (p : Packet) (op : MemOp) (e : Nat) : Option State :=
  let va := packetAddr p e
  let v' := { v with todo := v.todo.filter (fun x => x ≠ e) }
  match requestTarget s p va op.kind with
  | (.error r, s) => some (s.setServing v (some { v' with failed := v.failed ++ [(e, r)] }))
  | (.ok t, s) =>
    match resolve s t with
    | .at pa =>
      let (s, x) := performAt s op p.esize pa (packetAt p p.data e, packetAt p p.data2 e)
      some (s.setServing v (some { v' with
        got := if op.answers then v.got ++ [(e, x)] else v.got
        wrote := if op.kind = .read then v.wrote else (pa, p.esize / 8) :: v.wrote }))
    | _ => none

/-- The answer to a request (R357): its header with KIND 0x10 or 0x11, the failed elements, and the values of the others. It goes
back to the device that asked. -/
def Serving.answer (v : Serving) (p : Packet) (op : MemOp) (device : Nat) : Packet :=
  let bad := p.mask.filter (fun e => v.failed.any (fun f => f.1 = e))
  { p with
    kind := if op.answers then 0x10 else 0x11, vc := 0, src := device, dst := p.src, mask := bad, index := [], data2 := []
    data := (p.mask.filter (fun e => !bad.contains e)).filterMap (fun e => (v.got.find? (fun q => q.1 = e)).map Prod.snd)
    reason := match bad with
      | e :: _ => ((v.failed.find? (fun f => f.1 = e)).map Prod.snd).getD 0
      | [] => 0 }

/-- A request being performed goes on by the element named, or is answered (R359). Under AM = 11 elements go in order. -/
def servePacket (s : State) (v : Serving) (p : Packet) (elem : Option Nat) : Option State := do
  let op ← packetOp p
  match v.todo with
  | [] => some ((s.setServing v none).answer v.src v.seq (v.answer p op s.fabric.device))
  | e :: _ =>
    let x := elem.getD e
    if !v.todo.contains x || (decide (p.am = 3) && decide (x ≠ e)) then none else serveElement s v p op x

/-- A request packet arrives (R357, R366): one with a reserved KIND, FN or bit is dropped, and one whose number has been seen is
not performed again. After a failed boot none is answered (R453). -/
def arriveRequest (s : State) (p : Packet) : State :=
  if p.dst ≠ s.fabric.device || s.root.halted then s
  else if p.reserved || (packetOp p).isNone || !(([8, 16, 32, 64] : List Nat).contains p.esize) then s.drop
  else
    match (s.window p.src).look p.seq with
    | .below => s
    | .again a => s.again a
    | .fresh =>
      let v : Serving := { src := p.src, seq := p.seq, what := .packet p, todo := p.mask }
      let s := s.markSeen p.src p.seq none
      { s with fabric := { s.fabric with serving := s.fabric.serving ++ [v] } }

/-- REMOTE_REQUEST (R359). -/
def execRemoteRequest (packet : Packet) (s : State) : Result := .next (arriveRequest s packet)

end Sys2Proof.Machine
end

