-- ==== Sys2Proof/Machine/CollEvents.lean ====
section
/-!
DEFINITION. The course of a collective (R405-R413): the members' states, the coordinator at rank 0, the transfers, and the
fabric-port combiner of the destination die.
-/
namespace Sys2Proof.Machine

/-- Two records of the same post. -/
def Coll.same (a b : Coll) : Bool :=
  decide (a.die = b.die) && decide (a.launch = b.launch) && decide (a.ordinal = b.ordinal) && decide (a.id = b.id)

/-- `s` with a post replaced, or forgotten. -/
def State.setColl (s : State) (c : Coll) (new : Option Coll) : State :=
  { s with colls := s.colls.filterMap (fun d => if d.same c then new else some d) }

/-- The member's instance is held: it has signed and not concluded (R405). -/
def Coll.live (c : Coll) : Bool := c.phase = .signed || c.phase = .sending || c.phase = .sent

/-- The instance of a die by COLLID, instance number and NMEM. -/
def State.instance_ (s : State) (die collid : Nat) (inst : W64) (nmem : Nat) : Option Coll :=
  s.colls.find? (fun c => c.live && decide (c.key = (die, collid, inst, nmem)))

/-- MSG codes (R408). -/
abbrev msgSignature : Nat := 1
abbrev msgGo : Nat := 2
abbrev msgAbort : Nat := 3
abbrev msgSent : Nat := 4
abbrev msgDone : Nat := 5

/-- What a member or a coordinator sends to a device (R407, R408): numbered, timed and sent again as remote requests are, also over
the die-to-die links within this device. -/
def State.tell (s : State) (part : Nat) (dev : Nat) (who : Asker) (what : Sent) : State :=
  s.request { dst := dev, seq := s.nextSeq dev, what := what, who := who, part := part }

/-- A message of a member to rank 0 (R408). -/
def State.tellRoot (s : State) (c : Coll) (msg cause reason : Nat) (sig : Option Signature) : State :=
  let (dev, die) := c.members.getD 0 (0, 0)
  s.tell c.part dev (.message c.die c.collid c.inst c.members.length msg)
    (.message msg { src := s.fabric.device, dst := dev, ftag := (s.partAt c.part).pftag, cause := cause, reason := reason
                    collid := c.collid, srank := c.rank, drank := 0, ddie := die, inst := c.inst, nmem := c.members.length, sig := sig })

/-- A message of rank 0 to a member (R408). -/
def State.tellMember (s : State) (k : Coord) (r : Nat) (m : Nat × Nat) (msg cause reason : Nat) : State :=
  s.tell k.part m.1 (.message k.die k.collid k.inst k.nmem msg)
    (.message msg { src := s.fabric.device, dst := m.1, ftag := (s.partAt k.part).pftag, cause := cause, reason := reason
                    collid := k.collid, srank := 0, drank := r, ddie := m.2, inst := k.inst, nmem := k.nmem })

/-- A message to every member of the table (R405). -/
def State.multicast (s : State) (k : Coord) (msg cause reason : Nat) : State :=
  ((upTo k.members.length).zip k.members).foldl (fun s p => s.tellMember k p.1 p.2 msg cause reason) s

/-- The coordinator's record of an instance. -/
def State.coord (s : State) (die collid : Nat) (inst : W64) (nmem : Nat) : Option Coord :=
  s.coords.find? (fun k => k.die = die && k.collid = collid && k.inst = inst && k.nmem = nmem)

/-- `s` with a coordinator's record put in, replaced or forgotten. -/
def State.setCoord (s : State) (k : Coord) (new : Option Coord) : State :=
  let rest := s.coords.filter (fun j => !(j.die = k.die && j.collid = k.collid && j.inst = k.inst && j.nmem = k.nmem))
  { s with coords := rest ++ new.toList }

/-- The newest 256 of a die and COLLID stay remembered (R405). -/
def keepConcluded (die collid : Nat) (l : List Concluded) : List Concluded :=
  let same (x : Concluded) : Bool := x.die = die && x.collid = collid
  let extra := (l.filter same).length - 256
  l.filter (fun x => !(same x && ((l.filter same).take extra).contains x))

/-- An instance concludes at rank 0 (R405). -/
def State.conclude (s : State) (k : Coord) : State :=
  let s := s.setCoord k none
  { s with concluded := keepConcluded k.die k.collid (s.concluded ++ [⟨k.die, k.part, k.collid, k.inst, k.members, k.nmem⟩]) }

/-- ABORT to every member, and the instance concludes (R405). -/
def State.abortAll (s : State) (k : Coord) (cause reason : Nat) : State := (s.multicast k msgAbort cause reason).conclude k

/-- The coordinator looks at the signatures it has (R405): ABORT where one differs from the first, GO once all agree. Before rank 0
has read its own table it only holds them. -/
def judge (s : State) (k : Coord) : State :=
  match k.members, k.sigs with
  | _ :: _, (_, x) :: _ =>
    if k.sigs.any (fun q => q.2 ≠ x) then s.abortAll k 0x1F 1
    else if !k.going && decide (k.sigs.length = k.nmem) then
      (s.multicast k msgGo 0 0).setCoord k (some { k with going := true })
    else s.setCoord k (some k)
  | _, _ => s.setCoord k (some k)

/-- Rank 0 has read its own table: coordination begins (R405). The time for the signatures runs from the later of the first one and its
own post. -/
def beginCoord (s : State) (c : Coll) : State :=
  let k : Coord := (s.coord c.die c.collid c.inst c.members.length).getD
    { die := c.die, collid := c.collid, inst := c.inst, nmem := c.members.length }
  judge s { k with part := c.part, members := c.members, since := max k.since c.since }

/-- A post ends (R111, R405, R478): its counter is raised, with ERR for a cause of failure, as soon as its address translates. -/
def closeColl (s : State) (c : Coll) (cause : Nat) : State :=
  match raiseCounter s { c.agent with unit := unitCounter } c.counter (decide (cause ≠ 0)) (counterFault c.agent cause) with
  | .done s => s.setColl c none
  | .wait s => s.setColl c (some { c with phase := .closing cause })

/-- The counter of a post that has ended is tried again. -/
def tryClose (s : State) (c : Coll) : Option State :=
  match c.phase with
  | .closing cause =>
    (match raiseCounter s { c.agent with unit := unitCounter } c.counter (decide (cause ≠ 0)) (counterFault c.agent cause) with
     | .done s => some (s.setColl c none)
     | .wait s' => ifMoved s s')
  | _ => none

/-- The event of a collective's failure (R413, R423). -/
def Coll.report (c : Coll) (cause reason : Nat) : Report :=
  { cause := cause, detail := reason, part := c.part, gtag := c.gtag, launch := c.launch % 2 ^ 32, pc := c.pc, hdr := c.hdr
    a0 := c.collid, a1 := c.inst.toNat }

/-- A post fails with a cause and posts its event (R413). -/
def failColl (s : State) (c : Coll) (cause reason : Nat) : State := closeColl (postEvent s (c.report cause reason)) c cause

/-- A member meets a COLLFAULT (R405, R413): it posts the event and tells rank 0, which aborts every member; this one fails when its
ABORT arrives, and emits nothing more till then (DEDUCED). -/
def collFault (s : State) (c : Coll) (reason : Nat) : State :=
  if c.faulted then s else
  let s := (postEvent s (c.report 0x20 reason)).setColl c (some { c with faulted := true })
  if c.rank = 0 then
    match s.coord c.die c.collid c.inst c.members.length with
    | some k => s.abortAll k 0x20 reason
    | none => s
  else s.tellRoot c msgAbort 0x20 reason none

/-- The flag of a `coll` is lowered: the walker has read what it names (R402). -/
def completeColl (s : State) (c : Coll) : State :=
  match s.grp c.gtag with
  | some g =>
    (match g.flights.find? (fun f => f.phase = .collective && f.entry.id = c.id) with
     | some f => if g.launch = c.launch ∧ g.ordinal = c.ordinal then s.setGrp c.gtag (g.complete f.entry) else s
     | none => s)
  | none => s

/-- A post whose table the walker has read names its instance (R403). -/
def Coll.named (c : Coll) : Bool := decide (c.members ≠ [])

/-- The walker reads a post, and signs it or fails it (R405, R413). A rank 0 whose table has been read coordinates the others, also
where its own block fails. -/
def signColl (s : State) (c : Coll) : Option State :=
  let note (s : State) (c : Coll) : State :=
    if c.named && !s.postedColls.contains c.key then { s with postedColls := s.postedColls ++ [c.key] } else s
  match readColl s c with
  | .wait s' => ifMoved s s'
  | .bad s reason c' =>
    let s := completeColl (s.forget c.agent) c
    let begun (s : State) : State :=
      if reason = 4 ∧ c'.rank = 0 ∧ !s.postedColls.contains c'.key then beginCoord s c' else s
    some (failColl (if reason = 4 then note (begun s) c' else s) c' 0x1E reason)
  | .ok s c' =>
    let c' := { c' with phase := .signed }
    let s := note ((completeColl (s.forget c.agent) c).setColl c (some c')) c'
    let s := if c'.rank = 0 then beginCoord s c' else s
    some (s.tellRoot c' msgSignature 0 0 (some c'.sig))

/-- COLL_SIGN (R405): the first post of a die's walker that it can read. -/
def tryCollSign (s : State) (die : Nat) : Option State :=
  ((s.collsOf die).filter (fun c => c.phase = .posted)).findSome? (signColl s)

/-- COLL_SIGN (R405). -/
def execCollSign (die : Nat) (s : State) : Result := eventResult s (tryCollSign s die)

/-- A member that has emitted its whole walk, every transfer acknowledged, sends SENT (R405). -/
def settleSending (s : State) (c : Coll) : State :=
  if c.phase = .sending ∧ c.next ≥ c.walk.total ∧ c.unacked = [] then
    let c := { c with phase := .sent }
    (s.setColl c (some c)).tellRoot c msgSent 0 0 none
  else s.setColl c (some c)

/-- Instances that a die's walker holds signatures of before its own post (R405). -/
abbrev heldInstances : Nat := 1024

/-- A SIGNATURE at rank 0 (R405): none where it is not taken. -/
def takeSignature (s : State) (m : CollMsg) : Option State := do
  let sig ← m.sig
  if m.drank ≠ 0 then none
  else
    match s.concluded.find? (fun x => x.die = m.ddie && x.collid = m.collid && x.inst = m.inst && x.nmem = m.nmem) with
    | some x =>
      let k : Coord := { die := x.die, part := x.part, collid := x.collid, inst := x.inst, nmem := x.nmem, members := x.members }
      some (s.tellMember k m.srank (m.src, (x.members.getD m.srank (0, 0)).2) msgAbort 0x1F 3)
    | none =>
      match s.coord m.ddie m.collid m.inst m.nmem with
      | some k =>
        let known := k.sigs.contains (m.srank, sig)
        let since := if k.sigs = [] then s.cycle else k.since
        some (judge s { k with sigs := if known then k.sigs else k.sigs ++ [(m.srank, sig)], since := since })
      | none =>
        if (s.coords.filter (fun k => k.die = m.ddie && k.members = [])).length ≥ heldInstances then none
        else
          some (judge s { die := m.ddie, collid := m.collid, inst := m.inst, nmem := m.nmem, sigs := [(m.srank, sig)]
                          since := s.cycle })

/-- GO at a member (R405). -/
def takeGo (s : State) (m : CollMsg) : Option State := do
  let c ← s.instance_ m.ddie m.collid m.inst m.nmem
  if c.phase = .signed then some (settleSending s { c with phase := .sending }) else some s

/-- ABORT at a member, or from a member at rank 0 (R405, R408). A member that is SIGNED fails with COLLMISMATCH, with the ABORT's
reason where that is its cause (for the other cause no reason is stated: log entry 16); one that is SENDING or SENT only raises its
counter, since a COLLFAULT is reported by the member that met it (R413). -/
def takeAbort (s : State) (m : CollMsg) : Option State :=
  if m.srank ≠ 0 ∧ m.drank = 0 then do
    let k ← s.coord m.ddie m.collid m.inst m.nmem
    some (s.abortAll k m.cause m.reason)
  else do
    let c ← s.instance_ m.ddie m.collid m.inst m.nmem
    some (if c.phase = .signed then
        failColl s c 0x1F (if m.cause = 0x1F then m.reason else Config.unstated 17 [m.reason] % 256)
      else closeColl s c m.cause)

/-- SENT at rank 0 (R405). -/
def takeSent (s : State) (m : CollMsg) : Option State := do
  let k ← s.coord m.ddie m.collid m.inst m.nmem
  let k := { k with sents := if k.sents.contains m.srank then k.sents else k.sents ++ [m.srank] }
  some (if k.sents.length = k.nmem then (s.multicast k msgDone 0 0).conclude k else s.setCoord k (some k))

/-- DONE at a member (R405). -/
def takeDone (s : State) (m : CollMsg) : Option State := do
  let c ← s.instance_ m.ddie m.collid m.inst m.nmem
  if c.phase = .sent then some (closeColl s c 0) else some s

/-- A coordination message taken by its MSG (R408); none where it is dropped. -/
def takeMessage (s : State) (msg : Nat) (m : CollMsg) : Option State :=
  match msg with
  | 1 => takeSignature s m
  | 2 => takeGo s m
  | 3 => takeAbort s m
  | 4 => takeSent s m
  | 5 => takeDone s m
  | _ => none

/-- A dropped message is counted; a SIGNATURE beyond the capacity is only left unacknowledged (R405, R408). -/
def State.dropMessage (s : State) (msg : Nat) (m : CollMsg) : State :=
  if msg = msgSignature ∧ m.sig.isSome ∧ m.drank = 0 then s else s.drop

/-- The acknowledgement of a message or transfer (R357, R407, R408): its header is repeated, OPS zero among it, with the failed elements
in MASK. `addr` and `stride` are the dwords of the header at 0x10 and 0x18. -/
def ackPacket (device dst ftag seq : Nat) (addr stride : W64) (failed : List (Nat × Nat)) : Packet :=
  { kind := 0x11, esize := 0, src := device, dst := dst, ftag := ftag, seq := seq, addr := addr, stride := stride
    mask := failed.map Prod.fst, reason := match failed with | f :: _ => f.2 | [] => 0 }

/-- The dword at 0x10 of a coordination message: MSG, CAUSE and REASON (R408). -/
def messageHead (msg : Nat) (m : CollMsg) : W64 := BitVec.ofNat 64 (msg + 2 ^ 8 * m.cause + 2 ^ 16 * m.reason)

/-- The dword at 0x18 of a message or a transfer: LEN and COLLID (R407, R408). -/
def lenDword (len collid : Nat) : W64 := BitVec.ofNat 64 (len + 2 ^ 32 * collid)

/-- The acknowledgement of a coordination message (R408). -/
def messageAck (device msg : Nat) (m : CollMsg) : Packet :=
  ackPacket device m.src m.ftag m.seq (messageHead msg m) (lenDword ((m.sig.map (fun g => g.len)).getD 0) m.collid) []

/-- A coordination message arrives over the fabric (R366, R408); after a failed boot none is answered (R453). -/
def arriveMessage (s : State) (msg : Nat) (m : CollMsg) : State :=
  if m.dst ≠ s.fabric.device || s.root.halted then s
  else if m.reserved then s.drop
  else
    match (s.window m.src).look m.seq with
    | .below => s
    | .again a => s.again a
    | .fresh =>
      match takeMessage s msg m with
      | some s => s.answer m.src m.seq (messageAck s.fabric.device msg m)
      | none => s.dropMessage msg m

/-- SIGNATURE (R405). -/
def execSignature (msg : CollMsg) (s : State) : Result := .next (arriveMessage s msgSignature msg)
/-- GO (R405). -/
def execGo (msg : CollMsg) (s : State) : Result := .next (arriveMessage s msgGo msg)
/-- ABORT (R405). -/
def execAbort (msg : CollMsg) (s : State) : Result := .next (arriveMessage s msgAbort msg)
/-- SENT (R405). -/
def execSent (msg : CollMsg) (s : State) : Result := .next (arriveMessage s msgSent msg)
/-- DONE (R405). -/
def execCollectiveDone (msg : CollMsg) (s : State) : Result := .next (arriveMessage s msgDone msg)

/-- Signatures have not arrived within 2^30 cycles (R405). -/
def tryCoordinatorTimeout (s : State) (collid inst : Nat) : Option State := do
  let k ← s.coords.find? (fun k => k.collid = collid && k.inst = BitVec.ofNat 64 inst && k.members ≠ [] && !k.going
    && decide (k.since + 2 ^ 30 ≤ s.cycle))
  some (s.abortAll k 0x1F 2)

/-- COORDINATOR_TIMEOUT (R405). -/
def execCoordinatorTimeout (collid instNo : Nat) (s : State) : Result := eventResult s (tryCoordinatorTimeout s collid instNo)

/-- The peer of a tuple (R78). -/
def Template.peer (t : Template) (rank : Nat) (is : List Int) : Nat :=
  ((t.peers.zip is).foldl (fun (p : Int) q => (q.1.1 * q.2 + q.1.2.1 * p + q.1.2.2.1) % (q.1.2.2.2 : Int)) (rank : Int)).toNat

/-- A base plus strides times iteration numbers, modulo 2^64 (R79). -/
def stridedAddr (base : W64) (strides : List Int) (ks : List Nat) : W64 :=
  base + BitVec.ofInt 64 (((strides.zip ks).map (fun p => p.1 * (p.2 : Int))).sum)

/-- How the reading of source bytes ends. -/
inductive SourceRead where
  | ok (s : State) (bytes : List Byte)
  | fault (s : State) (reason : Nat)
  | wait (s : State)

/-- `n` elements of `size` bytes from a virtual address (R407). A page whose lease is revoked is reason 6 (R374). -/
def readSource (s : State) (w : Agent) (size : Nat) : W64 → Nat → SourceRead
  | _, 0 => .ok s []
  | va, n + 1 =>
    match readVa s w va size with
    | .ok s x =>
      (match readSource s w size (va + BitVec.ofNat 64 size) n with
       | .ok s bs => .ok s (toBytes size x ++ bs)
       | r => r)
    | .trap s i => .fault s (if i.cause = 0x08 then 6 else 1)
    | .failed s => .fault s 1
    | .wait s => .wait s

/-- The next transfer of a sending member (R78, R79, R407). -/
def emitNext (s : State) (c : Coll) : Option State := do
  let t ← c.tmpl
  if c.phase ≠ .sending ∨ c.faulted ∨ c.next ≥ c.walk.total then none
  else
    let ks := c.walk.tuple c.next
    let is := (c.walk.levels.zip ks).map (fun p => p.1.lo + (p.2 : Int) * p.1.step)
    let peer := t.peer c.rank is
    if peer ≥ c.members.length then some (collFault s c 4)
    else
      let src := stridedAddr t.srcBase t.srcStrides ks
      let e := elemBytes t.opc t.typ
      let size := if src.toNat % e = 0 then e else 1
      match readSource s c.agent size src (t.len / size) with
      | .wait s' => ifMoved s s'
      | .fault s r => some (collFault (s.forget c.agent) c r)
      | .ok s bs =>
        let (dev, die) := c.members.getD peer (0, 0)
        let addr := stridedAddr t.dstBase t.dstStrides ks + BitVec.ofInt 64 (t.dstRank * c.rank)
        let tr : Transfer :=
          { src := s.fabric.device, dst := dev, ftag := (s.partAt c.part).pftag, addr := addr, collid := c.collid, srank := c.rank
            drank := peer, ddie := die, inst := c.inst, first := c.rank, count := 1, nmem := c.members.length, sig := c.sig
            data := bs }
        let c' := { c with next := c.next + 1, unacked := c.unacked ++ [c.next] }
        some (((s.forget c.agent).setColl c (some c')).tell c.part dev
          (.transfer c.die c.collid c.inst c.members.length c.next) (.transfer tr))

/-- A transfer of a member has been acknowledged, with the elements that failed (R405, R413). -/
def transferAcked (s : State) (die collid : Nat) (inst : W64) (nmem index : Nat) (failed : Bool) : State :=
  match s.instance_ die collid inst nmem with
  | some c =>
    if c.phase ≠ .sending ∨ !c.unacked.contains index then s
    else if failed then collFault s c 2
    else settleSending s { c with unacked := c.unacked.filter (fun i => i ≠ index) }
  | none => s

/-- A transfer or a SIGNATURE has exhausted its resends (R405, R413). -/
def transferLost (s : State) (die collid : Nat) (inst : W64) (nmem : Nat) : State :=
  match s.instance_ die collid inst nmem with
  | some c => if c.phase = .sending then collFault s c 3 else s
  | none => s

/-- The same of a coordination message (R405). -/
def messageLost (s : State) (die collid : Nat) (inst : W64) (nmem msg : Nat) : State :=
  match s.instance_ die collid inst nmem with
  | some c => if msg = msgSignature ∧ c.phase = .signed then failColl s c 0x1F 2 else s
  | none => s

/-- A subnormal operand or result of type `t` becomes +0 (R412). -/
def flushed (t x : Nat) : Nat :=
  let m := (floatFmt t).mbits
  let e := (floatFmt t).ebits
  if x / 2 ^ m % 2 ^ e = 0 ∧ x % 2 ^ m ≠ 0 then 0 else x

/-- A float operation of a combiner (R412): subnormals flushed on the way in and out. -/
def flushedOp (t : Nat) (op : FVal → FVal → Nat × Nat) (x y : Nat) : Nat :=
  flushed t (op (readFloat t (flushed t x)) (readFloat t (flushed t y))).1

/-- plin composition of OPC 0x07 (R88, R412): `a` is applied first. -/
def flushedPlin (a b : Nat) : Nat :=
  let f (x : Nat) : Nat := flushed 8 x
  pairOf (flushedOp 8 (fun x y => floatMul 8 1 y x) (loOf a) (loOf b))
    (flushed 8 (floatFma 8 1 (readFloat 8 (f (loOf b))) (readFloat 8 (f (hiOf a))) (readFloat 8 (f (hiOf b)))).1)

/-- An element of TYPE as a block's operand, and a result as an element (R228, R410): narrow integers are extended by their
sign. -/
def blockOperand (t x : Nat) : Nat := if t < 4 ∧ typeWidth t < 32 then ofInt 32 (toSigned (typeWidth t) x) else x

/-- A combination through a lambda block (R409, R410). For 64-bit elements under a block of 32-bit operands the manual states no
value (log entry 16). -/
def blockCombine (b : Block) (t x y : Nat) : Nat :=
  if b.pair then (b.combine x y).1
  else if typeWidth t = 64 then Config.unstated 12 [x, y] % 2 ^ 64
  else (b.combine (blockOperand t x) (blockOperand t y)).1 % 2 ^ typeWidth t

/-- One element combined (R409, R412): `x` is the left operand. -/
def combineElement (c : Coll) (opc t x y : Nat) : Nat :=
  let int := decide (t < 8)
  let w := typeWidth t
  match opc with
  | 1 => if int then (x + y) % 2 ^ w else flushedOp t (floatAdd t 1) x y
  | 2 => if int then (if intValue t y < intValue t x then y else x) else flushed t (floatMinMax t false (flushed t x) (flushed t y)).1
  | 3 => if int then (if intValue t x < intValue t y then y else x) else flushed t (floatMinMax t true (flushed t x) (flushed t y)).1
  | 4 => Nat.land x y
  | 5 => Nat.lor x y
  | 7 => flushedPlin x y
  | _ => match c.block with | some b => blockCombine b t x y | none => x

/-- Attributes of a member's block (R83). -/
def Coll.attr (c : Coll) (k : Nat) : Bool := match c.block with | some b => bitOf b.attrs k | none => false

/-- The arriving contribution is the left operand (R409). -/
def arrivesLeft (c : Coll) (opc : Nat) (t : Transfer) : Bool :=
  (decide (opc = 7) || (decide (opc = 8) && !c.attr 1)) && decide (t.first < c.rank)

/-- A destination element after an arriving one (R409). -/
def arrivedElement (c : Coll) (x : Template) (t : Transfer) (old new : Nat) : Nat :=
  if x.opc = 0 then new
  else if arrivesLeft c x.opc t then combineElement c x.opc x.typ new old
  else combineElement c x.opc x.typ old new

/-- Two rank sets overlap (R411). -/
def ranksMeet (f n g m : Nat) : Bool := decide (f < g + m) && decide (g < f + n)

/-- What the destination has combined of a transfer's range and ranks (R411). -/
def Coll.meets (c : Coll) (t : Transfer) : List (W64 × Nat × Nat × Nat) :=
  c.combined.filter (fun p => decide (p.1.toNat < t.addr.toNat + t.data.length) && decide (t.addr.toNat < p.1.toNat + p.2.1)
    && ranksMeet p.2.2.1 p.2.2.2 t.first t.count)

/-- An overlapping arrival is combined all the same under an idempotent operator (R411). -/
def Coll.idempotent (c : Coll) (opc : Nat) : Bool := decide (2 ≤ opc ∧ opc ≤ 6) || (decide (opc = 8) && c.attr 3)

/-- A transfer taken by its destination member (R406, R411): its elements are performed one by one; none where it is neither
performed nor acknowledged. -/
def takeTransfer (s : State) (t : Transfer) : Option State := do
  let c ← s.instance_ t.ddie t.collid t.inst t.nmem
  let x ← c.tmpl
  if c.phase = .signed ∨ c.rank ≠ t.drank then none
  else
    let meets := c.meets t
    let serve (c : Coll) (todo : List Nat) : State :=
      let v : Serving := { src := t.src, seq := t.seq, what := .transfer t, todo := todo }
      let s := s.setColl c (some c)
      { s with fabric := { s.fabric with serving := s.fabric.serving ++ [v] } }
    if meets ≠ [] && !c.idempotent x.opc then
      if meets.any (fun p => p.2.2.1 ≤ t.srank && t.srank < p.2.2.1 + p.2.2.2) then some (serve c []) else none
    else
      let n := if x.opc = 6 then 1 else t.data.length / elemBytes x.opc x.typ
      some (serve { c with combined := c.combined ++ [(t.addr, t.data.length, t.first, t.count)] } (upTo n))

/-- A transfer arrives over the fabric (R366, R406); after a failed boot none is answered (R453). -/
def arriveTransfer (s : State) (t : Transfer) : State :=
  if t.dst ≠ s.fabric.device || s.root.halted then s
  else if t.reserved then s.drop
  else
    match (s.window t.src).look t.seq with
    | .below => s
    | .again a => s.again a
    | .fresh =>
      match takeTransfer s t with
      | some s => s.markSeen t.src t.seq none
      | none => s

/-- COLL_TRANSFER (R409). -/
def execCollTransfer (t : Transfer) (s : State) : Result := .next (arriveTransfer s t)

/-- Where bytes of a destination lie, or why they fail (R359). -/
inductive Places where
  | ok (s : State) (pas : List Nat)
  | failed (s : State) (reason : Nat)
  | wait

/-- The places of `n` bytes from a virtual address of a partition. -/
def placesOf (s : State) (part : Nat) (kind : AccessKind) : W64 → Nat → Places
  | _, 0 => .ok s []
  | va, n + 1 =>
    match partTarget s part va kind with
    | (.error r, s) => .failed s r
    | (.ok t, s) =>
      match resolve s t with
      | .at pa =>
        (match placesOf s part kind (va + 1) n with
         | .ok s pas => .ok s (pa :: pas)
         | r => r)
      | _ => .wait

/-- The number that bytes at places hold. -/
def readPlaces (m : Memory) : List Nat → Nat
  | [] => 0
  | a :: t => (Memory.read m a).toNat + 256 * readPlaces m t

/-- Memory with a number written to bytes at places. -/
def writePlaces (m : Memory) : List Nat → Nat → Memory
  | [], _ => m
  | a :: t, v => writePlaces (Memory.write m a (BitVec.ofNat 8 v)) t (v / 256)

/-- A list as its 8-byte entries. -/
def entriesOf (n : Nat) (x : Nat) : List Nat := (upTo n).map (fun j => bitsOf x (64 * j) 64)

/-- The destination after an arrival (R294, R409): of a rank-merge the whole list. -/
def combinedBytes (c : Coll) (x : Template) (t : Transfer) (old new : Nat) : Nat :=
  if x.opc = 6 then
    let n := t.data.length / 8
    (rankMerge x.typ (entriesOf n old) (entriesOf n new)).foldr (fun e a => e + 2 ^ 64 * a) 0
  else arrivedElement c x t old new

/-- The partition whose page table the elements of a transfer go through (R358, R359): the one that carries its FTAG; of a transfer
within this device the member's own (log entry 17). -/
def transferPart (s : State) (t : Transfer) (c : Coll) : Option Nat :=
  if t.src = s.fabric.device then some c.part else s.servingPart t.ftag

/-- One element of a transfer combined at the destination (R406, R409), or failed (R359); a rank-merge replaces its whole list or
none of it. -/
def serveTransferElement (s : State) (v : Serving) (t : Transfer) (c : Coll) (x : Template) (e : Nat) : Option (State × Serving) :=
  let size := if x.opc = 6 then t.data.length else elemBytes x.opc x.typ
  let v' := { v with todo := v.todo.filter (fun i => i ≠ e) }
  let fail (s : State) (r : Nat) : Option (State × Serving) := some (s, { v' with failed := v.failed ++ [(e, r)] })
  match transferPart s t c with
  | none => fail s 1
  | some part =>
    match placesOf s part (if x.opc = 0 then .write else .atomic) (t.addr + BitVec.ofNat 64 (e * size)) size with
    | .wait => none
    | .failed s r => fail s r
    | .ok s pas =>
      let new := ofBytes ((t.data.drop (e * size)).take size)
      some ({ s with mem := writePlaces s.mem pas (combinedBytes c x t (readPlaces s.mem pas) new) }, v')

/-- Several elements of a transfer, one after the other; none where one must wait. -/
def serveTransferElements (t : Transfer) (c : Coll) (x : Template) : State → Serving → List Nat → Option (State × Serving)
  | s, v, [] => some (s, v)
  | s, v, e :: rest => (serveTransferElement s v t c x e).bind (fun p => serveTransferElements t c x p.1 p.2 rest)

/-- The elements that are written with one of them: those left in its line of 128 bytes, which the walker owns from its first write
to it to its last (R390); where elements lie across lines, all that are left. -/
def lineElements (t : Transfer) (size : Nat) (todo : List Nat) (e : Nat) : List Nat :=
  let at_ (i : Nat) : Nat := t.addr.toNat + i * size
  if t.addr.toNat % size ≠ 0 then todo else todo.filter (fun i => decide (at_ i / 128 = at_ e / 128))

/-- An arrival that reaches the same element range of an instance, with a rank in common (R411). -/
def transfersMeet (t u : Transfer) : Bool :=
  decide ((t.ddie, t.collid, t.inst, t.nmem) = (u.ddie, u.collid, u.inst, u.nmem))
    && decide (t.addr.toNat < u.addr.toNat + u.data.length) && decide (u.addr.toNat < t.addr.toNat + t.data.length)
    && ranksMeet t.first t.count u.first u.count

/-- The combination that an arrival stands for is still being performed (R406): its acknowledgement waits. -/
def State.combining (s : State) (t : Transfer) : Bool :=
  s.fabric.serving.any (fun w => decide (w.todo ≠ []) && (match w.what with | .transfer u => transfersMeet t u | _ => false))

/-- A transfer being performed goes on by the element named, with its line, or is acknowledged (R406). Once its instance is over,
nothing more is written. -/
def serveTransfer (s : State) (v : Serving) (t : Transfer) (elem : Option Nat) : Option State :=
  match v.todo with
  | [] =>
    if s.combining t then none
    else some ((s.setServing v none).answer v.src v.seq (ackPacket s.fabric.device t.src t.ftag t.seq t.addr (lenDword t.data.length t.collid) v.failed))
  | e :: _ =>
    let x := elem.getD e
    match s.instance_ t.ddie t.collid t.inst t.nmem with
    | some c =>
      (match c.tmpl with
       | some tm =>
         if !v.todo.contains x then none
         else
           (serveTransferElements t c tm s v (lineElements t (if tm.opc = 6 then t.data.length else elemBytes tm.opc tm.typ) v.todo x)).map
             (fun p => p.1.setServing v (some p.2))
       | none => none)
    | none => some (s.setServing v none)

/-- Two transfers that a switch may combine (R409, R411): of one instance, to one range; sums and compositions only as sent the
first time, and with ranks that abut. -/
def mayCombine (a b : Transfer) : Bool :=
  let opc := a.sig.opc
  decide (a.dst = b.dst) && decide (a.ddie = b.ddie) && decide (a.drank = b.drank) && decide (a.addr = b.addr)
    && decide ((a.collid, a.inst, a.nmem, a.sig) = (b.collid, b.inst, b.nmem, b.sig)) && decide (a.data.length = b.data.length)
    && decide (a.first + a.count = b.first) && decide (1 ≤ opc ∧ opc ≤ 7)
    && (!(opc = 1 || opc = 7) || (!a.resent && !b.resent))

/-- The number that some bytes are, element by element combined (R409). -/
def combineData (a b : Transfer) : List Byte :=
  let t := a.sig.typ
  let opc := a.sig.opc
  let n := a.data.length
  let c : Coll :=
    { die := 0, gtag := 0, id := 0, launch := 0, ordinal := 0, part := 0, pc := 0, hdr := 0, lnr := 0, table := 0, counter := 0, inst := 0
      btbase := 0, btcount := 0, flags := [] }
  if opc = 6 then
    (rankMerge t (entriesOf (n / 8) (ofBytes a.data)) (entriesOf (n / 8) (ofBytes b.data))).flatMap (toBytes 8)
  else
    let size := elemBytes opc t
    (upTo (n / size)).flatMap (fun e =>
      let x := ofBytes ((a.data.drop (e * size)).take size)
      let y := ofBytes ((b.data.drop (e * size)).take size)
      toBytes size (combineElement c opc t x y))

/-- A switch combines two contributions on the links (R411): one packet whose rank set is the union, the lower ranks on the
left. -/
def tryCombine (s : State) (a b : Transfer) : Option State :=
  let links := s.fabric.links
  match links.find? (fun w => w.what = .transfer a), links.find? (fun w => w.what = .transfer b) with
  | some p, some q =>
    if a ≠ b ∧ mayCombine a b then
      let u : Transfer := { a with count := a.count + b.count, data := combineData a b, resent := a.resent || b.resent }
      some { s with fabric := { s.fabric with links := (links.erase p).erase q ++ [⟨p.spine, .transfer u⟩] } }
    else none
  | _, _ => none

/-- SWITCH_COMBINE (R411). -/
def execSwitchCombine (a b : Transfer) (s : State) : Result := eventResult s (tryCombine s a b)

end Sys2Proof.Machine
end

