-- ==== Sys2Proof/Machine/Sync.lean ====
section
/-!
DEFINITION. `fence`, `bar` and `gbar` (R387-R389, R395-R398).
-/
namespace Sys2Proof.Machine

/-- `fence` (R395, R396): it waits for the accesses that it orders before itself. -/
def execFence (f : FC) (s : State) : Result :=
  .next (issueControl
    { check := f.check false false false false 0 false true 0 (badOrd f.ord.toNat f.scope.toNat [1, 2, 3]), drained := true }
    (fun s tag g =>
      let scope := f.scope.toNat
      if scope = 0 then .done s
      else if g.fenced f.ord.toNat scope then
        .done (s.modGrp tag (fun g => g.afterOrd f.ord.toNat))
      else .stall s) s)

/-- The barriers of a unit: those of a core at scope 1, of a cluster at scope 2 (R397). -/
def State.barsOf (s : State) (scope unit : Nat) : List Bar :=
  if scope = 1 then (s.coreAt unit).bars else (s.clusterAt unit).bars

/-- `s` with the barriers of a unit replaced. -/
def State.setBars (s : State) (scope unit : Nat) (bs : List Bar) : State :=
  if scope = 1 then s.setCore unit { s.coreAt unit with bars := bs } else s.setCluster unit { s.clusterAt unit with bars := bs }

/-- The core or cluster at whose barriers a group arrives. -/
def barUnit (scope core : Nat) : Nat := if scope = 1 then core else clusterOf core

/-- The arrivals of an instance have reached its count (R397). -/
def Bar.complete (b : Bar) : Bool := decide (b.count ≤ b.arrivals.length)

/-- Barrier slots of a core or cluster at each scope (R397). -/
abbrev barSlots : Nat := 16

/-- The barriers after an arrival (R397): it joins the instance of its key that is open, or opens one; none where no slot is
free. -/
def arrive (bs : List Bar) (launch number count tag : Nat) : Option (List Bar) :=
  let mine (b : Bar) : Bool := b.launch = launch && b.number = number && !b.complete
  if bs.any mine then some (bs.map (fun b => if mine b then { b with arrivals := b.arrivals ++ [tag] } else b))
  else if (bs.filter (fun b => !b.complete)).length ≥ barSlots then none
  else some (bs ++ [{ launch := launch, number := number, count := count, arrivals := [tag] }])

/-- `bar` (R395, R397): it arrives once the group's older accesses are performed, as for an acquire-release fence, and completes when it
has been released. -/
def execBar (f : FC) (s : State) : Result :=
  .next (issueControl
    { check := f.check true false false false 0xF false true 0 (decide (f.ord ≠ 0) || !(f.scope = 1 || f.scope = 2))
      reads := [f.sa], drained := true } (fun s tag g =>
      let scope := f.scope.toNat
      let number := f.tcid.toNat % 16
      let count := (g.reg f.sa.toNat).toNat
      let unit := barUnit scope g.core
      if count = 0 || count > (if scope = 1 then 16 else 64) then .trap s (illegal 4)
      else if g.released then .done (s.setGrp tag { g.afterOrd 3 with released := false, arrived := none })
      else if g.arrived.isSome || !g.fenced 3 scope then .stall s
      else
        match arrive (s.barsOf scope unit) g.launch number count tag with
        | none => .stall s
        | some bs => .stall ((s.setBars scope unit bs).setGrp tag { g with arrived := some (scope, number) })) s)

/-- The first complete instance of a key, and the list without it. -/
def takeComplete (launch number : Nat) : List Bar → Option (Bar × List Bar)
  | [] => none
  | b :: t =>
    if b.launch = launch && b.number = number && b.complete then some (b, t)
    else (takeComplete launch number t).map (fun r => (r.1, b :: r.2))

/-- A complete instance releases its participants (R397). -/
def tryBarRelease (s : State) (launch scope unit number : Nat) : Option State := do
  let (b, bs) ← takeComplete launch number (s.barsOf scope unit)
  some (b.arrivals.foldl (fun s t => s.modGrp t (fun g => { g with released := true })) (s.setBars scope unit bs))

/-- BAR_RELEASE (R397). -/
def execBarRelease (launch scope unit number : Nat) (s : State) : Result :=
  eventResult s (if scope = 1 ∨ scope = 2 then tryBarRelease s launch scope unit number else none)

/-- A group's arrival is withdrawn from its instance, where that is not complete (R397, R427). -/
def withdraw (s : State) (tag : Nat) (g : Grp) : State :=
  match g.arrived with
  | none => s
  | some (scope, _) =>
    let unit := barUnit scope g.core
    let bs := (s.barsOf scope unit).filterMap (fun b =>
      if b.complete || !b.arrivals.contains tag then some b
      else
        let left := b.arrivals.filter (fun t => t ≠ tag)
        if left = [] then none else some { b with arrivals := left })
    (s.setBars scope unit bs).setGrp tag { g with arrived := none }

/-- The group stands at a barrier whose instance is complete: it passes it before anything else becomes of it. -/
def Grp.passing (s : State) (g : Grp) (tag : Nat) : Bool :=
  g.released || (match g.arrived with
    | some (scope, _) => (s.barsOf scope (barUnit scope g.core)).any (fun b => b.complete && b.arrivals.contains tag)
    | none => false)

/-- `gbar` (R395, R398): the group's next instance; it completes once every task of the launch has arrived or retired. -/
def execGbar (f : FC) (s : State) : Result :=
  .next (issueControl
    { check := f.check false false false false 0 false true 0 (decide (f.ord ≠ 0) || decide (f.scope ≠ 4)), drained := true
      concurrent := true } (fun s tag g =>
      match s.launchAt g.launch with
      | none => .stall s
      | some l =>
        if g.gbars < l.gbarDone then .done (s.setGrp tag { g.afterOrd 3 with gbars := g.gbars + 1 })
        else if l.gbars.contains g.ordinal || !g.fenced 3 4 then .stall s
        else .stall (s.setLaunch g.launch { l with gbars := l.gbars ++ [g.ordinal] })) s)

/-- The next `gbar` instance of a launch is complete (R398): every task has arrived or retired. -/
def Launch.gbarReady (l : Launch) : Bool := decide (l.gbars ≠ []) && decide (l.gbars.length + l.retired = l.total)

/-- A complete `gbar` instance releases every task (R398). -/
def tryGbarRelease (s : State) (launch : Nat) : Option State := do
  let l ← s.launchAt launch
  if l.gbarReady then some (s.setLaunch launch { l with gbarDone := l.gbarDone + 1, gbars := [] }) else none

/-- GBAR_RELEASE (R398). -/
def execGbarRelease (launch : Nat) (s : State) : Result := eventResult s (tryGbarRelease s launch)

end Sys2Proof.Machine
end

