-- ==== Sys2Proof/Machine/Context.lean ====
section
/-!
DEFINITION. A group's context: what it takes of its core (R119), its release (R443), halting (R427), the save area (R428, R431)
and its restoring (R432).
-/
namespace Sys2Proof.Machine

/-- What a resident group takes of its core (R119). -/
def Grp.holding (g : Grp) : Holding :=
  { launch := g.launch, slot := g.slot, words := taskWords g.nreg g.declVl, tiles := g.nacc, granule := g.spadBase / 4096
    granules := g.spad }

/-- What is taken of a core: by its groups, and by contexts released and not yet scrubbed (R444). -/
def State.holdings (s : State) (c : Nat) : List Holding := (s.groupsOf c).map Grp.holding ++ (s.coreAt c).releases

/-- The granules of a holding. -/
def Holding.run (h : Holding) : List Nat := upFrom h.granule h.granules

/-- The owner of each granule of a run set, or cleared (R297). -/
def setOwners (owner : Assoc Nat) (who : Option Nat) : List Nat → Assoc Nat
  | [] => owner
  | n :: t => setOwners (match who with | some l => Assoc.put owner n l | none => Assoc.del owner n) who t

/-- `s` with `n` bytes of a core's scratchpad at an offset set to zero. -/
def State.clearSpad (s : State) (c off n : Nat) : State :=
  let a := spadKey c off
  { s with spad := s.spad.filter (fun p => decide (p.1 < a) || decide (a + n ≤ p.1)) }

/-- An access of a group's control-side word. -/
def Asker.ofWord (tag : Nat) : Asker → Bool
  | .engine u g _ _ => decide ((u = unitWord ∨ u = unitSwap) ∧ g = tag)
  | _ => false

/-- The requests and answers of a group's control-side word are forgotten. -/
def State.forgetWord (s : State) (tag : Nat) : State :=
  let s := s.forgetAll (Asker.ofWord tag)
  { s with fabric := { s.fabric with requests := s.fabric.requests.filter (fun r => !r.who.ofWord tag) } }

/-- A cluster unfuses once the launch that fused it has no group in it (R128): its lines are written back again. -/
def unfuse (s : State) (cluster : Nat) : State :=
  let u := s.clusterAt cluster
  match u.fused with
  | none => s
  | some l =>
    if s.groups.any (fun p => clusterOf p.2.core = cluster && p.2.launch = l) then s
    else s.setCluster cluster { u with fused := none, busy := true }

/-- A group leaves its core (R443): its state is gone, the owner of its granules cleared. Where its scrub is still to come, what
it took stays taken until then (R444); where it formed part of a save, its scratchpad is zero and its resources are free. -/
def releaseGroup (s : State) (tag : Nat) (g : Grp) (scrubbed : Bool) : State :=
  let h := g.holding
  let s := { (withdraw s tag g).forgetWord tag with groups := Assoc.del s.groups tag }
  let u := s.coreAt g.core
  let s := s.setCore g.core { u with
    owner := setOwners u.owner none h.run, permitted := u.permitted.filter (fun t => t ≠ tag)
    releases := if scrubbed then u.releases else u.releases ++ [h] }
  let s := if scrubbed then s.clearSpad g.core (h.granule * 4096) (h.granules * 4096) else s
  unfuse s (clusterOf g.core)

/-- What is sent only reads. -/
def onlyReads : Sent → Bool
  | .packet p => decide (p.kind = 1)
  | _ => false

/-- What a halt asks about the word that a group's control thread has reached: its barrier is complete, or a lender performs part of
it or has answered it already (R153, R427). A read that is on its way is given up. -/
def Grp.midWord (s : State) (g : Grp) (tag : Nat) : Bool :=
  g.passing s tag || s.lmaps.any (fun p => p.gtag = tag) || g.saveWait.isSome
    || s.fabric.requests.any (fun r => r.who.ofWord tag && !onlyReads r.what) || s.fabric.answers.any (fun p => p.1.ofWord tag)

/-- A running group that has been asked to halt does so (R427, R429): its barrier arrival is withdrawn, and it is rolled back to
VCOMMIT; a trap found at the head of its queue is taken first. The monitors sample a pre-emption (R448). -/
def tryGroupHalt (s : State) (tag : Nat) : Option State := do
  let g ← s.grp tag
  if !g.halt || g.run ≠ .running || g.midWord s tag || (match g.vq with | e :: _ => e.trap.isSome | [] => false) then none
  else
    let s := (withdraw s tag g).forgetWord tag
    let s := (s.rollBack tag).modGrp tag (fun g => { g with
      run := .halted, halt := false, clause := [], partly := [], midClause := decide (g.pc ≠ g.hdr), yieldUntil := 0
      waitingSince := none })
    some (if g.save.any (fun r => r.queued) then sampleCore s g.core 8 g.part none else s)

/-- GROUP_HALT (R427). -/
def execGroupHalt (gtag : Nat) (s : State) : Result := eventResult s (tryGroupHalt s gtag)

/-- The committed work of a group has completed (R428). -/
def Grp.settledAll (g : Grp) : Bool :=
  g.drained && decide (g.stores = []) && decide (g.loads = []) && decide (g.flags = [])
    && g.counted.all (fun c => c.path = .cp) && g.asked.isNone

/-- Bytes of a save area (R431). -/
def areaSizeOf (nreg regWords nacc spad : Nat) : Nat := 0x3000 + 4 * nreg * regWords + 16384 * nacc + 4096 * spad
/-- Bytes of a group's save area. -/
def Grp.areaSize (g : Grp) : Nat := areaSizeOf g.nreg g.regWords g.nacc g.spad
/-- Bytes of a saved group's area. -/
def SavedGrp.areaSize (v : SavedGrp) : Nat := areaSizeOf v.nreg (roundUp v.vl 32) v.nacc v.spad

/-- The bytes of a mask register (R431). -/
def maskBytes (m : Mask) : List Byte := toBytes 256 m.toNat

/-- The fields of a save area from its start to its tables (R431). -/
def Grp.areaHead (g : Grp) : List (Nat × Nat) :=
  let parked := match g.run with | .parked _ => true | _ => false
  let fp (k : Nat) : Nat := (FMap.get 0 g.fprog k).toNat
  [ (8, 1 + g.nreg * 2 ^ 8 + g.nacc * 2 ^ 16 + g.spad * 2 ^ 19 + g.declVl * 2 ^ 25 + g.level.num * 2 ^ 35 + bit g.tact * 2 ^ 37
      + bit parked * 2 ^ 38)
  , (8, g.pc.toNat), (8, g.hdr.toNat), (8, g.launch % 2 ^ 32), (8, g.ordinal)
  , (8, g.part + g.prio * 2 ^ 8 + g.cls * 2 ^ 11 + bit g.fuse * 2 ^ 13), (8, g.age), (8, g.gbars)
  , (8, g.vl + g.vtail * 2 ^ 32), (8, g.vconf.toNat), (8, g.xflags), (8, g.allocth), (8, g.rankcfg.toNat)
  , (8, g.attbase.toNat), (8, g.recbase.toNat), (8, fp 0), (8, fp 1), (8, fp 2), (8, fp 3), (8, fp 4) ]
  ++ (upTo 12).map (fun k => (1, g.flag k)) ++ [(4, 0)]
  ++ [Path.ld, .st, .sp, .cp, .mx, .fb].map (fun p => (2, g.counter p)) ++ [(4, 0)]
  ++ [ (8, g.tepc.toNat), (8, g.thdr.toNat), (8, g.tcause.toNat), (8, g.taddr.toNat), (8, g.tscr0.toNat), (8, g.tscr1.toNat)
     , (8, match g.run with | .parked t => t | _ => 0), (8, 0) ]
  ++ (upTo 64).map (fun n => (8, (g.reg n).toNat)) ++ (upTo 8).map (fun n => (256, (g.mask n).toNat))
  ++ (upTo 2048).map (fun i => (2, (FMap.get tableReset g.att i).toNat))
  ++ (upTo 2048).map (fun i => (2, (FMap.get tableReset g.recon i).toNat)) ++ [(1280, 0)]

/-- A save area after its tables: vector registers, tiles, and the scratchpad (R431). -/
def Grp.areaTail (s : State) (g : Grp) : List (Nat × Nat) :=
  (upTo (g.nreg * g.regWords)).map (fun k => (4, (FMap.get 0 g.v k).toNat))
  ++ (upTo (g.nacc * 4096)).map (fun k => (4, (FMap.get 0 g.acc k).toNat))
  ++ [(4096 * g.spad, s.spadRead g.core g.spadBase (4096 * g.spad))]

/-- The bytes of a group's save area (R431). -/
def areaBytes (s : State) (g : Grp) : List Byte := layout (g.areaHead ++ g.areaTail s)

/-- What the device keeps of a group that it has saved. -/
def savedOf (s : State) (g : Grp) (r : SaveReq) : SavedGrp :=
  { launch := g.launch, ordinal := g.ordinal, part := g.part, prio := g.prio, cls := g.cls, fuse := g.fuse, age := g.age
    area := r.area, slot := r.slot, token := match g.run with | .parked t => some t | _ => none
    vl := g.declVl, nreg := g.nreg, nacc := g.nacc, spad := g.spad, counted := g.counted, since := s.cycle
    queued := r.queued, resumed := decide (r.act = some 0), terminate := decide (r.act = some 1)
    nextId := g.nextId, gen := g.gen, cps := g.cps }

/-- A copy of the group's own uses its scratchpad, or may yet be found to (R346). -/
def Grp.copying (g : Grp) (s : State) : Bool :=
  (s.coreAt g.core).copies.any (fun j => decide (j.launch = g.launch ∧ j.ordinal = g.ordinal) && !j.closed
    && (match j.read with | some d => d.ssp || d.dsp | none => true))

/-- The save of a halted or parked group (R428, R431, R443): its area is written and its resources are free. It waits for every copy
of its own that uses its scratchpad (R346). -/
def trySaveComplete (s : State) (tag : Nat) : Option State := do
  let g ← s.grp tag
  let r ← g.save
  if !(match g.run with | .halted | .parked _ => true | _ => false) || !g.settledAll || g.copying s then none
  else
    let v := savedOf s g r
    let s := { s with mem := Memory.writeBytes s.mem r.area (areaBytes s g), saved := s.saved ++ [v] }
    some (releaseGroup s tag g true)

/-- SAVE_COMPLETE (R428). -/
def execSaveComplete (gtag : Nat) (s : State) : Result := eventResult s (trySaveComplete s gtag)

/-- The dword at an offset of a save area. -/
def areaDword (s : State) (a off : Nat) : Nat := s.memRead (a + off) 8

/-- The bits of a register that a save area may hold: those that a `setsr` writes, and TACT (R417, R431). -/
def areaBits (i : Nat) (x : W64) : W64 := srMerge i 0 x ||| (if i = 0x102 then x &&& 0x80000000 else 0)

/-- The registers of a save area keep the ranges and the reserved bits of R40, R41, R240, R278 and R417. -/
def areaRegsOk (d : Nat → Nat) : Bool :=
  let within (off i : Nat) : Bool := decide (areaBits i (BitVec.ofNat 64 (d off)) = BitVec.ofNat 64 (d off))
  !bitOf (d 0xD0) 25 && !badVconf (d 0x48) && decide (bitsOf (d 0x50) 6 58 = 0) && within 0x58 0x005 && !badRankcfg (d 0x60)
    && (upTo 5).all (fun k => within (0x78 + 8 * k) (0x020 + k))
    && within 0xC0 0x100 && within 0xC8 0x101 && within 0xD0 0x102

/-- An area of `n` bytes lies in memory from its first byte to its last (R477). -/
def areaNames (mask a n : Nat) : Bool := namesMemory mask a && namesMemory mask (a + n - 1)

/-- A save area is in memory and of version 1, its fields are in range and its reserved bits zero (R11, R439). -/
def areaOk (s : State) (a : Nat) : Bool :=
  let d := areaDword s a
  let d0 := d 0
  let l := roundUp (bitsOf d0 25 9) 32
  areaNames s.dieMask a (areaSizeOf (bitsOf d0 8 8) l (bitsOf d0 16 3) (bitsOf d0 19 6))
    && decide (bitsOf (d 0x40) 32 32 ≤ bitsOf (d 0x40) 0 32) && decide (bitsOf (d 0x40) 0 32 ≤ 8 * l)
    && (upTo 12).all (fun k => decide (s.memRead (a + 0xA0 + k) 1 < 64))
    && decide (bitsOf d0 0 8 = 1) && decide (1 ≤ bitsOf d0 8 8 ∧ bitsOf d0 8 8 ≤ 32) && decide (bitsOf d0 16 3 ≤ 4)
    && decide (bitsOf d0 19 6 ≤ 32) && decide (1 ≤ bitsOf d0 25 9 ∧ bitsOf d0 25 9 ≤ 256) && !bitOf d0 34
    && decide (bitsOf d0 35 2 ≤ 2) && decide (bitsOf d0 39 25 = 0) && decide (bitsOf (d 0x18) 32 32 = 0)
    && decide (bitsOf (d 0x28) 14 50 = 0) && decide (bitsOf (d 0x28) 11 2 ≠ 3) && areaRegsOk d
    && decide (s.memRead (a + 0xAC) 4 = 0) && decide (s.memRead (a + 0xBC) 4 = 0) && decide (d 0xF8 = 0)
    && decide (s.memRead (a + 0x2B00) 1280 = 0)

/-- A table of entries of a width read from memory into a map. -/
def readEntries {n : Nat} (s : State) (a width count : Nat) (dflt : BitVec n) : FMap (BitVec n) :=
  (upTo count).foldl (fun m i => FMap.set dflt m i (BitVec.ofNat n (s.memRead (a + width * i) width))) []

/-- A group as its save area holds it (R431, R432), on a core, at a slot, with its scratchpad at an offset, which s7 receives. Reserved
bits of its registers are zero, whatever the area has come to hold (R11). -/
def restoreGroup (s : State) (v : SavedGrp) (core slot base : Nat) : Grp :=
  let a := v.area
  let d (off : Nat) : Nat := areaDword s a off
  let w (off : Nat) : W64 := BitVec.ofNat 64 (d off)
  let reg (off i : Nat) : W64 := areaBits i (w off)
  let l := roundUp v.vl 32
  let a0 := a + 0x3000 + 4 * l * v.nreg
  let run : RunState :=
    match v.token with
    | some t => if v.terminate then .terminated else if v.resumed then .running else .parked t
    | none => if v.terminate then .terminated else .running
  { core := core, slot := slot, launch := v.launch, ordinal := v.ordinal, part := v.part, prio := v.prio, cls := v.cls
    promoted := v.promoted, fuse := v.fuse, age := v.age, regWords := l, declVl := v.vl, nreg := v.nreg, nacc := v.nacc, spad := v.spad
    spadBase := base
    s := FMap.set 0 (FMap.set 0 (readEntries s (a + 0x100) 8 64 0) 0 0) 7 (BitVec.ofNat 64 base)
    m := (upTo 8).foldl (fun m n => FMap.set 0 m n (BitVec.ofNat 2048 (s.memRead (a + 0x300 + 256 * n) 256))) []
    v := readEntries s (a + 0x3000) 4 (v.nreg * l) 0
    acc := readEntries s a0 4 (4096 * v.nacc) 0
    flags := (upTo 12).foldl (fun m k => FMap.set 0 m k (s.memRead (a + 0xA0 + k) 1)) []
    pc := w 8, hdr := w 0x10, midClause := decide (d 8 ≠ d 0x10)
    level := Level.ofNum (bitsOf (d 0) 35 2), run := run, token := v.token.getD 0
    vl := bitsOf (d 0x40) 0 32, vtail := bitsOf (d 0x40) 32 32, vconf := w 0x48 &&& 0xFC3C, drm := bitsOf (d 0x48) 13 3
    xflags := d 0x50 % 64, allocth := d 0x58 % 2 ^ 32, rankcfg := w 0x60 &&& 0x00007FFF07FF0FFF, attbase := w 0x68, recbase := w 0x70
    fprog := (upTo 5).foldl (fun m k => FMap.set 0 m k (reg (0x78 + 8 * k) (0x020 + k))) []
    counted := v.counted, nextId := v.nextId, gen := v.gen, cps := v.cps, gbars := d 0x38
    tepc := reg 0xC0 0x100, thdr := reg 0xC8 0x101, tcause := reg 0xD0 0x102, taddr := w 0xD8, tscr0 := w 0xE0, tscr1 := w 0xE8
    att := readEntries s (a + 0xB00) 2 2048 tableReset, recon := readEntries s (a + 0x1B00) 2 2048 tableReset }

/-- `s` with the scratchpad of a restored group copied from its area (R432). -/
def restoreSpad (s : State) (v : SavedGrp) (core base : Nat) : State :=
  let from_ := v.area + 0x3000 + 4 * roundUp v.vl 32 * v.nreg + 16384 * v.nacc
  s.spadWrite core base (4096 * v.spad) (s.memRead from_ (4096 * v.spad))

/-- The context of a task at its start (R32, R33, R118). -/
def newGroup (n : Nat) (l : Launch) (ordinal core slot base : Nat) : Grp :=
  let r := l.record
  let g : Grp :=
    { core := core, slot := slot, launch := n, ordinal := ordinal, part := r.part, prio := r.prio, cls := r.cls, fuse := r.l1fuse
      age := n, regWords := roundUp r.vl 32, declVl := r.vl, nreg := r.nreg, nacc := r.nacc, spad := r.spad, spadBase := base
      pc := r.entry, hdr := r.entry, vl := r.vl, vtail := r.vl, vconf := r.vconf, drm := bitsOf r.vconf.toNat 13 3 }
  let ix := r.lnr.indices ordinal
  let g := [(1, ix.getD 0 0), (2, ix.getD 1 0), (3, ix.getD 2 0), (4, ix.getD 3 0), (5, BitVec.ofNat 64 ordinal), (6, r.args)
    , (7, BitVec.ofNat 64 base), (8, BitVec.ofNat 64 slot)].foldl (fun (g : Grp) p => g.setReg p.1 p.2) g
  g.setMask 0 (maskOf r.vl (fun _ => true))

end Sys2Proof.Machine
end

