-- ==== Sys2Proof/Machine/Migrate.lean ====
section
/-!
DEFINITION. Page migration (R315-R320, R353, R373), `tierq` (R341, R342), the invalidation of cached translations (R308, R310) and
the host's answers to translation requests (R303).
-/
namespace Sys2Proof.Machine

/-- The accesses of a place. -/
def Loc.accesses : Loc → List Access
  | .mem a => [a]
  | .bytes as => as
  | _ => []

/-- The accesses that a queue entry holds: those of its probe, or, while that is being made, one for each page that it has translated
(R306). -/
def VEntry.captured (e : VEntry) : List Access :=
  match e.probe with
  | some as => as
  | none => e.seen.map (fun p => { elem := 0, size := 1, va := p.1, target := p.2.target p.1 })

/-- The accesses that a step of a form holds. -/
def FormStep.captured : FormStep → List Access
  | .elem _ reads dest => (reads ++ dest.toList).flatMap Loc.accesses
  | .closeRow _ _ dest => dest.toList.flatMap Loc.accesses
  | .openRow _ _ _ => []

/-- The accesses that a group's probes and checks have captured and that are not performed (R308), but for those of queue entries that a
test leaves out. -/
def Grp.capturedBut (g : Grp) (skip : VEntry → Bool) : List Access :=
  (g.vq.filter (fun e => !skip e)).flatMap VEntry.captured ++ g.flights.flatMap (fun f => f.todo)
    ++ g.stores.flatMap (fun e => match e.act with | .store a _ | .flush a => [a] | _ => [])
    ++ (match g.form with
        | some run => (run.plan.getD []).flatMap FormStep.captured
        | none => [])
    ++ g.loads.filterMap (fun l => l.acc)

/-- The same of every entry. -/
def Grp.captured (g : Grp) : List Access := g.capturedBut (fun _ => false)

/-- A captured access of a partition that a test names is still to be performed. -/
def State.holds (s : State) (part : Nat) (p : Access → Bool) : Bool :=
  s.groups.any (fun g => decide (g.2.part = part) && g.2.captured.any p)

/-- The address lies in a range of virtual addresses. -/
def inRange (lo size : Nat) (va : W64) : Bool := decide (lo ≤ va.toNat) && decide (va.toNat < lo + size)

/-- `s` without the kept translations of a partition that a test names, and without what its walkers have taken. -/
def State.dropCached (s : State) (part : Nat) (p : CachedXl → Bool) : State :=
  { s with cached := s.cached.filter (fun c => !(c.part = part && p c)), walkPast := s.walkPast.filter (fun k => k.part ≠ part) }

/-- The page that a kept translation maps holds an address (R301). -/
def CachedXl.covers (c : CachedXl) (va : Nat) : Bool :=
  decide (va / pageBytes c.level = c.vpage * 2 ^ 16 / pageBytes c.level)

/-- `s` without the kept translations of a partition whose pages meet a range. -/
def State.invalidate (s : State) (part lo size : Nat) : State :=
  s.dropCached part (fun c =>
    let n := pageBytes c.level
    let base := c.vpage * 2 ^ 16 / n * n
    decide (base < lo + size) && decide (lo < base + n))

/-- The range that an invalidation names meets the page of `bytes` bytes that holds a virtual page of 64 KiB (R310). -/
def rangeMeets (x : W64) (vpage bytes : Nat) : Bool :=
  let page := ((x.extractLsb' 0 41).signExtend 48).toNat
  let meets (n : Nat) : Bool := decide (vpage / (max n bytes / 2 ^ 16) = page / (max n bytes / 2 ^ 16))
  match bitsOf x.toNat 61 2 with
  | 0 => meets (2 ^ 16)
  | 1 => meets (2 ^ 21)
  | 2 => meets (2 ^ 29)
  | _ => true

/-- An invalidation removes a kept translation: one of a larger page goes with any part of it (R310). -/
def invalidates (x : W64) (c : CachedXl) : Bool := rangeMeets x c.vpage (pageBytes c.level)

/-- PART of an invalidation (R310). -/
def invalPart (x : W64) : Nat := bitsOf x.toNat 53 8

/-- A write of the invalidation register (R310). -/
def writeInvalidation (s : State) (value : W64) : State :=
  if !value.getLsbD 63 then { s with invalReg := value &&& 0x7FE001FFFFFFFFFF }
  else if s.invalidation.isSome then { s with invalDrop := true }
  else
    let x := value &&& 0x7FE001FFFFFFFFFF
    { s with invalReg := x, invalidation := some x }

/-- TLB_INVALIDATE (R310). -/
def execTlbInvalidate (value : BitVec 64) (s : State) : Result := .next (writeInvalidation s value)

/-- The kept translations that an invalidation removes. -/
def State.removed (s : State) (x : W64) : List CachedXl := s.cached.filter (fun c => c.part = invalPart x && invalidates x c)

/-- An access of memory was captured under a translation that an invalidation removes (R308). -/
def State.underRemoved (s : State) (x : W64) (a : Access) : Bool :=
  match a.target with
  | .spad _ | .peer _ => false
  | _ => rangeMeets x (a.va.toNat / 2 ^ 16) (2 ^ 16) || (s.removed x).any (fun c => c.covers a.va.toNat)

/-- An element asked of a lender under a leaf that an invalidation removes has not been answered (R308, R330). -/
def State.askedUnder (s : State) (x : W64) (r : Request) : Bool :=
  match r.what with
  | .packet p =>
    p.leased && decide (r.part = invalPart x) && (s.removed x).any (fun c =>
      match c.form with
      | .leaf l =>
        decide (l.tier = 3) && decide (l.lease = p.ftag) && p.mask.any (fun e =>
          decide (l.frame ≤ (packetAddr p e).toNat) && decide ((packetAddr p e).toNat < l.frame + pageBytes l.level))
      | _ => false)
  | _ => false

/-- A probe under way has translated a page that an invalidation removes (R306, R308). -/
def State.seenUnder (s : State) (x : W64) : Bool :=
  s.groups.any (fun g => decide (g.2.part = invalPart x) && g.2.vq.any (fun e => e.probe.isNone
    && e.seen.any (fun p => rangeMeets x (p.1.toNat / 2 ^ 16) (pageBytes p.2.level))))

/-- An access captured under what an invalidation removes is still to be performed (R308). -/
def State.invalidationWaits (s : State) (x : W64) : Bool :=
  s.holds (invalPart x) (s.underRemoved x) || s.seenUnder x || s.fabric.requests.any (s.askedUnder x)

/-- An invalidation ends once every access captured under what it removes is performed (R308, R310). -/
def tryInvalidationComplete (s : State) : Option State := do
  let x ← s.invalidation
  if s.invalidationWaits x then none
  else some { s.dropCached (invalPart x) (invalidates x) with invalidation := none }

/-- The request that an answer of the host is for, in the stage named (R303). -/
def answered (s : State) (a : HostAnswer) (pri : Bool) : Option HostRequest :=
  s.hostRequests.find? (fun r => r.part = a.part && r.va.toNat / 2 ^ 16 = a.va.toNat / 2 ^ 16 && r.pri == pri && !r.failed)

/-- `s` with a request to the host replaced. -/
def State.setRequest (s : State) (r : HostRequest) (new : Option HostRequest) : State :=
  { s with hostRequests := s.hostRequests.filterMap (fun q => if q = r then new else some q) }

/-- The leaf that a granted translation is (R303): of tier T4, stable, with the rights that the host grants. -/
def grantedLeaf (a : HostAnswer) : Leaf :=
  { addr := none, level := 3, d1 := BitVec.ofNat 64 (bitsOf a.frame 16 36 * 2 ^ 16)
    d0 := BitVec.ofNat 64 (2 ^ 63 + 2 ^ 62 + 4 * 2 ^ 58 + a.part % 256 * 2 ^ 48 + bit a.ex * 32 + bit a.wr * 16 + bit a.rd * 8) }

/-- The host answers an ATS request (R303): the translation is held, or a page request follows. An answer for a page that the tables
translate by now is not used (R310). -/
def tryAtsResponse (s : State) (a : HostAnswer) : Option State := do
  let r ← answered s a false
  if a.granted then
    let s' := s.setRequest r none
    some (if walk s a.part a.va = .host then s'.hold a.part a.va (.leaf (grantedLeaf a)) else s')
  else some (s.setRequest r (some { r with pri := true }))

/-- ATS_TRANSLATION_RESPONSE (R303). -/
def execAtsTranslationResponse (answer : HostAnswer) (s : State) : Result := eventResult s (tryAtsResponse s answer)

/-- The host answers a page request (R303): the translation is asked for again, or the access fails with detail 0x05. -/
def tryPageResponse (s : State) (a : HostAnswer) : Option State := do
  let r ← answered s a true
  some (s.setRequest r (some (if a.granted then { r with pri := false } else { r with failed := true })))

/-- PAGE_REQUEST_RESPONSE (R303). -/
def execPageRequestResponse (answer : HostAnswer) (s : State) : Result := eventResult s (tryPageResponse s answer)

/-- A dword of a migration record (R315). -/
def recordDword (s : State) (record k : Nat) : Nat := (Memory.dword s.mem (record + 8 * k)).toNat

/-- The frame that a dword of a migration record names (R315). -/
def recordFrame (d : Nat) : Nat := bitsOf d 16 36 * 2 ^ 16
/-- The TIER code beside it. -/
def recordTier (d : Nat) : Nat := bitsOf d 58 3

/-- The frame of a leaf, and its TIER; for a page in transit the old frame (R302, R315). -/
def Leaf.place (l : Leaf) (s : State) : Nat × Nat :=
  if l.mig = 1 then (recordTier (recordDword s l.frame 0), recordFrame (recordDword s l.frame 0)) else (l.tier, l.frame)

/-- What `tierq` answers of an address (R341, R342). -/
def tierWord (s : State) (g : Grp) (va : W64) : Nat × State :=
  match findLeaf s g.part va with
  | (.leaf l, s) =>
    if l.part ≠ g.part then (7 * 2 ^ 60, s)
    else
      let (kind, frame) := l.place s
      let tier := if kind = 0 then (if frame / 2 ^ 31 = dieOf g.core then 0 else 1) else kind
      let psz := match l.level with | 1 => 2 | 2 => 1 | _ => 0
      let dem := kind = 3 && s.leases.any (fun e => e.borrower && e.number = l.lease && e.state = .demoting)
      (2 ^ 63 + tier * 2 ^ 60 + l.mig * 2 ^ 58 + psz * 2 ^ 56 + bit dem * 2 ^ 55 + bit l.ex * 2 ^ 53 + bit l.wr * 2 ^ 52
        + bit l.rd * 2 ^ 51 + (if kind = 3 then l.lease else 0) * 2 ^ 32
        + (if l.mig = 1 then bitsOf (recordDword s l.frame 2) 0 32 else 0), s)
  | (.host, s) => (7 * 2 ^ 60 + 2 ^ 54, s)
  | (.fault _, s) => (7 * 2 ^ 60, s)

/-- `tierq` (R341, R342): its destination is pending until the value is written, as for a scalar load. -/
def execTierq (f : FS) (s : State) : Result :=
  .next (issueControl { check := f.check true true false true, reads := [f.sa], writes := [f.sd] } (fun s tag g =>
    let (x, s) := tierWord s g (f.addr g)
    finishLoad s tag g (g.newLoad f.sd.toNat 64 false) false x) s)

/-- A probe's accesses with other places. -/
def VEntry.moved (e : VEntry) (f : Access → Access) : VEntry := { e with probe := e.probe.map (List.map f) }

/-- `s` with other places for what the passes of a partition that have no grant are to read (R266). -/
def State.retarget (s : State) (part : Nat) (f : Access → Access) : State :=
  let entry (e : VEntry) : VEntry := if (passOf e.instr).isSome then e.moved f else e
  { s with groups := s.groups.map (fun p => if p.2.part = part then (p.1, { p.2 with vq := p.2.vq.map entry }) else p) }

/-- A place of a form with other places for its accesses. -/
def Loc.moved (f : Access → Access) : Loc → Loc
  | .mem a => .mem (f a)
  | .bytes as => .bytes (as.map f)
  | l => l

/-- A step of a form with other places for its accesses. -/
def FormStep.moved (f : Access → Access) : FormStep → FormStep
  | .elem i reads dest => .elem i (reads.map (Loc.moved f)) (dest.map (Loc.moved f))
  | .closeRow j len dest => .closeRow j len (dest.map (Loc.moved f))
  | x => x

/-- A buffered action with another place for its access. -/
def Buffered.moved (f : Access → Access) : Buffered → Buffered
  | .store a v => .store (f a) v
  | .flush a => .flush (f a)
  | x => x

/-- A group with other places for everything that its probes and checks have captured, and other leaves for the pages that a probe under
way has translated (R317). -/
def Grp.moved (g : Grp) (f : Access → Access) (h : Leaf → Leaf) : Grp :=
  let entry (e : VEntry) : VEntry := { e.moved f with seen := e.seen.map (fun p => (p.1, h p.2)) }
  let run (r : FormRun) : FormRun :=
    { r with plan := r.plan.map (List.map (FormStep.moved f)), early := r.early.map (fun q => { q with loc := q.loc.moved f }) }
  { g with
    vq := g.vq.map entry, flights := g.flights.map (fun x => { x with todo := x.todo.map f })
    stores := g.stores.map (fun e => { e with act := e.act.moved f }), form := g.form.map run
    loads := g.loads.map (fun l => { l with acc := l.acc.map f }) }

/-- An access reads a unit of a page in transit. -/
def Access.inUnit (a : Access) (record p : Nat) : Bool :=
  match a.target with
  | .transit r off => decide (r = record ∧ off / 256 = p)
  | _ => false

/-- A granted pass reads the unit (R266). -/
def State.passReads (s : State) (record p : Nat) : Bool :=
  s.groups.any (fun g => g.2.flights.any (fun f => f.phase = .matrix && f.todo.any (fun a => a.inUnit record p)))

/-- A table entry gives up its pins, and what it has read of the accesses that a test names, where it has one (R266). -/
def MatrixEntry.unpinned (e : MatrixEntry) (accs : List Access) (p : Access → Bool) : MatrixEntry :=
  if accs.any p then
    { e with ready := false, pins := [], early := e.early.filter (fun x => !((accs[x.1]?).any p)) }
  else e

/-- The operands that the request behind a table entry reads. -/
def State.operandsOf (s : State) (e : MatrixEntry) : List Access := (((s.grp e.gtag).bind (fun g => g.behind e.id)).map Prod.snd).getD []

/-- The entries without a grant give up what a test names: a unit that moves, or the region of a lease that is returned (R266). -/
def State.unpin (s : State) (p : Access → Bool) : State :=
  let entry (u : ClusterUnit) (e : MatrixEntry) : MatrixEntry :=
    if u.granted.any (fun q => q.gtag = e.gtag && q.id = e.id) then e else e.unpinned (s.operandsOf e) p
  { s with clusters := s.clusters.map (fun c => (c.1, { c.2 with table := c.2.table.map (entry c.2) })) }

/-- A migration begins (R315, R316): its record is written, its reserved bits zero, MIG := 01 and dword 1 := record, and
no translation of the page is held any more. -/
def startMigration (s : State) (record part : Nat) (l : Leaf) (va ntier nframe : Nat) (lease : Option Nat) : State :=
  match l.addr with
  | none => s
  | some e =>
    let size := pageBytes l.level
    let m := Memory.writeNat s.mem record 8 (l.tier * 2 ^ 58 + l.frame)
    let m := Memory.writeNat m (record + 8) 8 (ntier * 2 ^ 58 + nframe)
    let m := Memory.writeNat m (record + 16) 8 0
    let m := Memory.writeNat m (record + 24) 8 va
    let d0 := setBitsOf (Memory.dword s.mem e).toNat 56 2 1
    let m := Memory.clear m (record + 32) 32
    let m := Memory.writeNat (Memory.writeNat m e 8 d0) (e + 8) 8 record
    let g : Migration :=
      { record := record, part := part, leaf := e, size := size, va := BitVec.ofNat 64 va, lease := lease
        pinned := decide (l.mig = 2) }
    let s := { s with mem := m, migrations := s.migrations ++ [g] }.invalidate part va size
    s.retarget part (fun a => if inRange va size a.va then { a with target := .transit record (a.va.toNat - va) } else a)

/-- `pmigrate` (R353): the first status that applies. A record that names no memory has no effect and an unstated status (log
entry 16). -/
def execPmigrate (f : FC) (s : State) : Result :=
  .next (issueControl
    { check := f.check true true true true, level := .supervisor, reads := [f.sa, f.sb, f.sc], writes := [f.sd]
      drained := true } (fun s tag g =>
      let va := g.reg f.sa.toNat
      let b := (g.reg f.sb.toNat).toNat
      let c := (g.reg f.sc.toNat).toNat
      let (nframe, ntier, record, part) := (recordFrame b, bitsOf b 60 3, bitsOf c 6 46 * 64, bitsOf c 56 8)
      match walk s part va with
      | .leaf l =>
        if l.mig = 2 then doneWith s tag g f.sd 1
        else if l.mig = 1 then doneWith s tag g f.sd 2
        else if l.part ≠ part || l.tier = 3 then doneWith s tag g f.sd 3
        else if nframe % pageBytes l.level ≠ 0 || !(ntier = 0 || ntier = 2 || ntier = 4) then doneWith s tag g f.sd 4
        else if !namesMemory s.dieMask record then doneWith s tag g f.sd (Config.unstated 9 [record])
        else
          let size := pageBytes l.level
          doneWith (startMigration s record part l (va.toNat / size * size) ntier nframe none) tag g f.sd 0
      | _ => doneWith s tag g f.sd 3) s)

/-- Where a frame of a record lies. -/
inductive FramePlace where
  | here (pa : Nat)
  | lender (lease offset : Nat)
  /-- no memory: a copy there is an error (R316) -/
  | nowhere
  deriving DecidableEq, Repr

/-- The place at an offset of a record's frame. -/
def framePlace (mask : Nat) (m : Migration) (d off : Nat) : FramePlace :=
  if recordTier d = 3 then
    match m.lease with
    | some l => .lender l (recordFrame d + off)
    | none => .nowhere
  else if frameNames mask (recordTier d) (recordFrame d + off)
  then .here (frameAddr (recordTier d) (recordFrame d + off))
  else .nowhere

/-- The agent of a demotion's reads at the lender. -/
abbrev unitDemote : Nat := 12

/-- A unit's read at the lender (R373): 32 dwords, on VC2 at the reserve's priority. -/
def unitPacket (s : State) (l off : Nat) : Packet :=
  { leasedPacket s 1 0 64 l off 0xFFFF false [] [] with vc := 2, mask := upTo 32 }

/-- An access of this lease has been asked of the lender and not answered, but for the demotion's own. -/
def leaseBusy (s : State) (lease : Nat) : Bool :=
  s.fabric.requests.any (fun r =>
    (match r.who with | .engine u _ _ _ => decide (u ≠ unitDemote) | _ => true) &&
    (match r.what with | .packet p => p.leased && decide (p.ftag = lease) | _ => false))

/-- A write to `n` bytes of a lease's region from an offset has been asked of the lender and not answered: it is performed in the old frame
before the copy reads them (R317). A read brings the same bytes from either frame (R474). -/
def writeBusy (s : State) (lease off n : Nat) : Bool :=
  s.fabric.requests.any (fun r =>
    match r.what with
    | .packet p =>
      p.leased && decide (p.ftag = lease) && decide (p.kind ≠ 1) && p.mask.any (fun e =>
        decide ((packetAddr p e).toNat < off + n) && decide (off < (packetAddr p e).toNat + p.esize / 8))
    | _ => false)

/-- An access to the page was captured under a translation from before the migration (R308, R310). -/
def Migration.stale (m : Migration) (s : State) : Bool :=
  s.holds m.part (fun a => inRange m.va.toNat m.size a.va && (match a.target with | .transit r _ => decide (r ≠ m.record) | _ => true))

/-- `s` with a migration replaced. -/
def State.setMigration (s : State) (m : Migration) : State :=
  { s with migrations := s.migrations.map (fun g => if g.record = m.record then m else g) }

/-- What becomes of a unit: its 256 bytes as a number, or what stands against it. -/
inductive UnitRead where
  | bytes (s : State) (value : Nat)
  | error (s : State)
  | wait (s : State)

/-- Unit `p` read from the old frame. -/
def readUnit (s : State) (m : Migration) (p : Nat) : UnitRead :=
  match framePlace s.dieMask m (recordDword s m.record 0) (256 * p) with
  | .here pa => .bytes s (s.memRead pa 256)
  | .lender l off =>
    if writeBusy s l off 256 then .wait s
    else
      let w : Agent := { unit := unitDemote, a := l, b := p, part := m.part }
      let va := m.va + BitVec.ofNat 64 (256 * p)
      (match reachAt s w va (.leased l off) (fun s _ => (s, 0)) unitPacket with
       | .ok s v => .bytes (s.forget w) v
       | .failed s => .error (s.forget w)
       | .trap s _ => .error s
       | .wait s => .wait s)
  | .nowhere => .error s

/-- P (R315). -/
def Migration.progress (m : Migration) (s : State) : Nat := bitsOf (recordDword s m.record 2) 0 32
/-- STALL (R315). -/
def Migration.stalled (m : Migration) (s : State) : Bool := bitOf (recordDword s m.record 2) 32

/-- The current stamp (R318). -/
def stampNow (s : State) : Nat := s.cycleReg / 1024 % 2 ^ 21

/-- The move history after one more move (R319): dword 2, dword 3 with MCNT, and whether the page is pinned. -/
def nextHistory (now d2 d3 : Nat) : Nat × Nat × Bool :=
  if d3 % 4 = 3 ∧ (now + 2 ^ 21 - bitsOf d2 42 21) % 2 ^ 21 < 65536 then (d2, d3, true)
  else (now + bitsOf d2 0 21 * 2 ^ 21 + bitsOf d2 21 21 * 2 ^ 42, d3 / 4 * 4 + min 3 (d3 % 4 + 1), false)

/-- A migration or pin event (R423). -/
def Migration.report (m : Migration) (cause detail a0 : Nat) : Report :=
  { cause := cause, detail := detail, part := m.part, addr := m.va, a0 := a0 }

/-- A page's last unit has been moved (R316): the entry names the new frame, its history is updated (R319), the old translation
is invalidated, and the events are posted; a demotion posts no migration event (R373). -/
def finishMigration (s : State) (m : Migration) : State :=
  let new := recordDword s m.record 1
  let d (k : Nat) : Nat := (Memory.dword s.mem (m.leaf + 8 * k)).toNat
  let (d2, d3, pin) := nextHistory (stampNow s) (d 2) (d 3)
  let d0 := setBitsOf (setBitsOf (d 0) 58 3 (recordTier new)) 56 2 (if pin || m.pinned then 2 else 0)
  let d0 := if m.lease.isSome then setBitsOf d0 32 16 0 else d0
  let mem := Memory.writeNat (Memory.writeNat s.mem m.leaf 8 d0) (m.leaf + 8) 8 (recordFrame new)
  let mem := Memory.writeNat (Memory.writeNat mem (m.leaf + 16) 8 d2) (m.leaf + 24) 8 d3
  let p := m.progress s
  let s := { s with mem := mem, migrations := s.migrations.filter (fun g => g.record ≠ m.record) }
  let s := s.invalidate m.part m.va.toNat m.size
  let s := if pin then (postEvent s (m.report 0x22 0 0)).count 10 (some m.part) (some 1) else s
  if m.lease.isSome then s else postEvent s (m.report 0x21 0 p)

/-- The level of the entry at which a walk of an address ends (R301). -/
def walkLevel (mask : Nat) (m : Memory) (va table level : Nat) : Nat → Nat
  | 0 => 3
  | left + 1 =>
    let e := table + 32 * tableIndex level va
    let d (k : Nat) : W64 := Memory.dword m (e + 8 * k)
    if namesMemory mask e && (d 0).getLsbD 63 && !(d 0).getLsbD 62 && tableOk level (d 0) (d 1) (d 2) (d 3) then
      walkLevel mask m va (bitsOf (d 1).toNat 6 46 * 64) (level + 1) left
    else level

/-- Bytes that an entry of a level covers (R301). -/
def entryBytes (level : Nat) : Nat :=
  match level with
  | 0 => 2 ^ 41
  | 1 => 2 ^ 29
  | 2 => 2 ^ 21
  | _ => 2 ^ 16

/-- The next leaf of a lease from an address on, in ascending order, before the end of its range (R373). -/
def nextLeased (s : State) (part lease last : Nat) : Nat → Nat → Option (Nat × Leaf)
  | 0, _ => none
  | fuel + 1, va =>
    if va ≥ last then none
    else
      let here := walk s part (BitVec.ofNat 64 va)
      let size := entryBytes (walkLevel s.dieMask s.mem va (bitsOf (s.partAt part).root.toNat 21 31 * 2 ^ 21) 0 4)
      let on : Option (Nat × Leaf) := nextLeased s part lease last fuel (va / size * size + size)
      match here with
      | .leaf l => if l.tier = 3 && l.lease = lease && l.mig ≠ 1 then some (va / size * size, l) else on
      | _ => on

/-- The end of a lease's region of virtual addresses. -/
def LeaseEntry.last (e : LeaseEntry) : Nat := e.base.toNat + e.gran * 2 ^ 29

/-- A lease event (R423): the region's base, at the lender as a device physical address (log entry 17). -/
def LeaseEntry.report (e : LeaseEntry) (cause : Nat) : Report :=
  let base := if e.borrower then e.base
    else BitVec.ofNat 64 (frameAddr (bitsOf e.base.toNat 58 3) (bitsOf e.base.toNat 29 23 * 2 ^ 29))
  { cause := cause, part := e.part, addr := base, a0 := e.number }

/-- A lease message to the other device of a lease (R371). -/
def State.sendLease (s : State) (kind : Nat) (e : LeaseEntry) : State :=
  s.transmit (.lease kind e.peer
    { src := s.fabric.device, lease := e.number, backed := e.backed, gran := e.gran, notice := e.notice })

/-- `s` with the entry of a lease replaced, or freed. -/
def State.setLease (s : State) (number : Nat) (borrower : Bool) (new : Option LeaseEntry) : State :=
  { s with leases := s.leases.filterMap (fun e => if e.number = number && e.borrower == borrower then new else some e) }

/-- The demotion of a lease goes on from an address (R372, R373): with its next leaf, or, where none is left, it ends: the entry
is freed, DONE is sent and LEASEDONE posted. Where MREC names no memory, no page can move (R315), and D_B passes. -/
def demoteFrom (s : State) (e : LeaseEntry) (va : Nat) : State :=
  if !namesMemory s.dieMask e.mrec then s else
  match nextLeased s e.part e.number e.last (e.gran * 2 ^ 13 + 1) va with
  | some (a, l) => startMigration s e.mrec e.part l a e.rtier (e.resv + (a - e.base.toNat)) (some e.number)
  | none => postEvent ((s.setLease e.number true none).sendLease 0x25 e) (e.report 0x1B)

/-- The borrower's entry of a lease. -/
def State.borrowed (s : State) (number : Nat) : Option LeaseEntry :=
  s.leases.find? (fun e => e.borrower && decide (e.number = number))

/-- A unit that cannot be copied stalls the migration (R316): STALL := 1, P unchanged; a demotion posts no event (R373). -/
def stallMigration (s : State) (m : Migration) : State :=
  let p := m.progress s
  let s := { s with mem := Memory.writeNat s.mem (m.record + 16) 8 (p + 2 ^ 32) }.setMigration { m with locked := false }
  if m.lease.isSome then s else postEvent s (m.report 0x21 1 p)

/-- The deadline of the demotion that a migration serves has passed (R372). -/
def Migration.overdue (m : Migration) (s : State) : Bool :=
  match m.lease.bind s.borrowed with
  | some e => (match e.deadline with | some d => decide (d < s.cycle) | none => false)
  | none => false

/-- What is captured of a page in transit that has come out of it lies in the new frame (R317). -/
def State.arrived (s : State) (m : Migration) : State :=
  let new := recordDword s m.record 1
  let place (a : Access) : Access :=
    match a.target with
    | .transit r off => if r = m.record then { a with target := .phys (frameAddr (recordTier new) (recordFrame new + off)) } else a
    | _ => a
  let leaf (l : Leaf) : Leaf :=
    if l.mig = 1 ∧ l.frame = m.record then { l with d0 := Memory.dword s.mem m.leaf, d1 := Memory.dword s.mem (m.leaf + 8) } else l
  { s with groups := s.groups.map (fun p => if p.2.part = m.part then (p.1, p.2.moved place leaf) else p) }

/-- A page has moved (R316): its migration ends, in the step that stores P = page size ÷ 256, and a demotion goes on (R373). -/
def State.pageMoved (s : State) (m : Migration) : State :=
  let s := (finishMigration s m).arrived m
  match m.lease.bind s.borrowed with
  | some e => demoteFrom s e (m.va.toNat + m.size)
  | none => s

/-- What is noted of `n` bytes from a place of one space is noted of those from another place (R392). -/
def carried (n space place toSpace toPlace : Nat) (at_ : Nat × Nat) : Nat × Nat :=
  if at_.1 = space ∧ place ≤ at_.2 ∧ at_.2 < place + n then (toSpace, at_.2 - place + toPlace) else at_

/-- The copy of a unit of 256 bytes carries with it what groups and requests under way have noted of its bytes (R380, R391, R392). -/
def State.carryNotes (s : State) (space place new : Nat) : State :=
  let go (sp pl : Nat) : Nat × Nat := carried 256 space place 0 new (sp, pl)
  let read (h : ReadAhead) : ReadAhead := { h with space := (go h.space h.place).1, place := (go h.space h.place).2 }
  let past (h : Overwritten) : Overwritten :=
    if h.space = 0 then { h with place := (go 0 h.place).2 } else h
  let served (v : Serving) : Serving := { v with wrote := v.wrote.map (fun w => ((go 0 w.1).2, w.2)) }
  { s with
    groups := s.groups.map (fun p => (p.1, { p.2 with readAhead := p.2.readAhead.map read, formPast := p.2.formPast.map past }))
    fabric := { s.fabric with serving := s.fabric.serving.map served } }

/-- A migration goes on by one unit, and ends with its last (R315-R317). The unit is locked while its bytes come from a lender. -/
def tryMigrationUnitCopy (s : State) (record : Nat) : Option State := do
  let m ← s.migrations.find? (fun m => m.record = record)
  let p := m.progress s
  if m.stalled s || m.overdue s then none
  else if 256 * p ≥ m.size then some (s.pageMoved m)
  else if m.stale s || s.passReads record p then none
  else
    let s := s.unpin (fun a => a.inUnit record p)
    match readUnit s m p with
    | .wait s' => ifMoved s (s'.setMigration { m with locked := true })
    | .error s' => if m.lease.isSome then some (stallMigration s' m) else none
    | .bytes s x =>
      match framePlace s.dieMask m (recordDword s record 1) (256 * p) with
      | .here pa =>
        let s := match framePlace s.dieMask m (recordDword s record 0) (256 * p) with
          | .here old => s.carryNotes 0 old pa
          | .lender l off => s.carryNotes (leaseSpace l) off pa
          | .nowhere => s
        let s := s.memWrite pa 256 x
        let s := { s with mem := Memory.writeNat s.mem (record + 16) 8 (p + 1) }.setMigration { m with locked := false }
        let s := s.count 6 (some m.part) none
        some (if 256 * (p + 1) ≥ m.size then s.pageMoved m else s)
      | _ => none

/-- MIGRATION_UNIT_COPY (R316). -/
def execMigrationUnitCopy (record : Nat) (s : State) : Result := eventResult s (tryMigrationUnitCopy s record)

/-- A copy error stalls a migration (R316). What an error is, is the device's; a frame that names no memory is one. -/
def tryMigrationStall (s : State) (record : Nat) : Option State := do
  let m ← s.migrations.find? (fun m => m.record = record)
  if m.stalled s || decide (256 * m.progress s ≥ m.size) || m.stale s then none else some (stallMigration s m)

/-- MIGRATION_STALL (R316). -/
def execMigrationStall (record : Nat) (s : State) : Result := eventResult s (tryMigrationStall s record)

/-- The next unit of a migration has no memory to come from or go to: its stall is the only way on. -/
def mustStall (s : State) (m : Migration) : Bool :=
  let off := 256 * m.progress s
  decide (framePlace s.dieMask m (recordDword s m.record 0) off = .nowhere)
    || decide (framePlace s.dieMask m (recordDword s m.record 1) off = .nowhere)

/-- An access lies at the lender of a lease. -/
def Access.under (a : Access) (lease : Nat) : Bool :=
  match a.target with
  | .leased l _ => decide (l = lease)
  | _ => false

/-- A cache-class lease that is being returned has been discarded (R372): no access that was captured under it, or asked of its
lender, is left, but for passes that have no grant (R266). DONE is sent. -/
def State.finishReturn (s : State) : Option State := do
  let e ← s.leases.find? (fun e => e.borrower && decide (e.state = .returning) && !leaseBusy s e.number
    && !s.groups.any (fun g => decide (g.2.part = e.part)
      && (g.2.capturedBut (fun q => (passOf q.instr).isSome)).any (fun a => a.under e.number)))
  some ((s.setLease e.number true (some { e with state := .revoked })).sendLease 0x25 e)

/-- INVALIDATION_COMPLETE (R310, R372): of the register's invalidation, or of a lease's region. -/
def execInvalidationComplete (s : State) : Result := eventResult s ((tryInvalidationComplete s).or s.finishReturn)

end Sys2Proof.Machine
end

