-- ==== Sys2Proof/Machine/Placement.lean ====
section
/-!
DEFINITION. The loop-nest walkers: finding room on a core (R119-R123), reservations (R125), pre-emption (R126, R127), fused
clusters (R128) and the placing of a task (R118).
-/
namespace Sys2Proof.Machine

/-- What is looked for on a core: a task's shape and whose it is. -/
structure Shape where
  launch : Nat
  part : Nat
  vl : Nat
  nreg : Nat
  nacc : Nat
  spad : Nat
  fuse : Bool
  deriving DecidableEq, Repr

/-- The shape of a launch's tasks. -/
def LaunchRec.shape (r : LaunchRec) (n : Nat) : Shape := ⟨n, r.part, r.vl, r.nreg, r.nacc, r.spad, r.l1fuse⟩
/-- The shape of a saved group. -/
def SavedGrp.shape (v : SavedGrp) : Shape := ⟨v.launch, v.part, v.vl, v.nreg, v.nacc, v.spad, v.fuse⟩

/-- What a task of a shape takes, at a slot and a run of granules. -/
def Shape.holding (p : Shape) (slot granule : Nat) : Holding := ⟨p.launch, slot, taskWords p.nreg p.vl, p.nacc, granule, p.spad⟩

/-- What concurrent launches have reserved on a core for tasks that are not resident, but for those of one launch (R125). -/
def State.reservedOn (s : State) (c except_ : Nat) : List Holding :=
  (s.launches.filter (fun p => p.2.holds && decide (p.1 ≠ except_))).flatMap (fun p =>
    (p.2.reserved.filter (fun r => r.core = c && s.awaits p.1 r)).map (fun r => (p.2.record.shape p.1).holding 16 r.granule))

/-- A run of granules is free of what is taken or reserved. -/
def runFree (taken : List Holding) (base n : Nat) : Bool :=
  decide (base + n ≤ Config.granules) && taken.all (fun h => decide (h.granule + h.granules ≤ base) || decide (base + n ≤ h.granule))

/-- The slot and the run of granules that a shape gets where some holdings are taken and some are reserved (R119, R120): the lowest
slot, and the run given or else the lowest-addressed one. -/
def roomIn (p : Shape) (taken reserved : List Holding) (fixed : Option Nat) : Option (Nat × Nat) :=
  let all := taken ++ reserved
  let sum (f : Holding → Nat) : Nat := (all.map f).sum
  if all.length ≥ Config.slots || sum (fun h => h.words) + taskWords p.nreg p.vl > Config.regWords
      || sum (fun h => h.tiles) + p.nacc > Config.tiles then none
  else
    let slot := (upTo Config.slots).find? (fun k => !taken.any (fun h => h.slot = k))
    let runs := all.filter (fun h => h.granules ≠ 0)
    let base := if p.spad = 0 then some 0
      else match fixed with
        | some b => if runFree runs b p.spad then some b else none
        | none => (upTo Config.granules).find? (fun b => runFree runs b p.spad)
    match slot, base with
    | some k, some b => some (k, b)
    | _, _ => none

/-- A group or a reservation of another launch is in a cluster, some groups taken as gone. -/
def othersIn (s : State) (cluster launch : Nat) (gone : List Nat) : Bool :=
  (upTo 4).any (fun j =>
    let c := 4 * cluster + j
    (s.groupsOf c).any (fun g => g.launch ≠ launch && !gone.contains g.tag) || decide (s.reservedOn c launch ≠ []))

/-- The launch that a cluster is fused for, some groups taken as gone (R128). -/
def State.fusedFor (s : State) (cluster : Nat) (gone : List Nat) : Option Nat :=
  (s.clusterAt cluster).fused.filter (fun l =>
    decide (gone = []) || s.groups.any (fun p => clusterOf p.2.core = cluster && p.2.launch = l && !gone.contains p.1))

/-- The L1 mode of a core's cluster suits a shape, some groups taken as gone (R128). -/
def fuseOk (s : State) (p : Shape) (c : Nat) (gone : List Nat) : Bool :=
  let k := clusterOf c
  match s.fusedFor k gone with
  | some l => p.fuse && decide (l = p.launch)
  | none => !p.fuse || (s.clusterIn k p.part && !othersIn s k p.launch gone)

/-- A core can hold a task (R120), some of its groups taken as gone; `fixed` is the run of a reserved task, whose core may be
leaving the partition (R130). -/
def canHold (s : State) (p : Shape) (c : Nat) (gone : List Nat) (fixed : Option Nat) : Option (Nat × Nat) :=
  let u := s.coreAt c
  let mine := if fixed.isSome then s.inPart c p.part else s.mayPlace c p.part
  if mine && decide (p.vl ≤ s.vlmax c) && fuseOk s p c gone then
    let kept := (s.groupsOf c).filter (fun g => !gone.contains g.tag)
    roomIn p (kept.map Grp.holding ++ u.releases) (s.reservedOn c p.launch) fixed
  else none

/-- The placement order from the core after the cursor, once around (R122). -/
def searchOrder (cursor : Option Nat) : List Nat :=
  match cursor with
  | none => placementOrder
  | some c =>
    let after := (placementOrder.dropWhile (fun k => k ≠ c)).drop 1
    after ++ placementOrder.filter (fun k => !after.contains k)

/-- The first core found that can hold a shape, with its slot and run (R122). -/
def findRoom (s : State) (p : Shape) (cursor : Option Nat) : Option (Nat × Nat × Nat) :=
  (searchOrder cursor).findSome? (fun c => (canHold s p c [] none).map (fun r => (c, r.1, r.2)))

/-- Something that waits to be placed: a saved group, or a task; where its run is fixed by a reservation, on which core. -/
structure Waiter where
  launch : Nat
  prio : Nat
  shape : Shape
  saved : Option SavedGrp
  ordinal : Nat
  fixed : Option Reserved
  deriving DecidableEq, Repr

/-- The priority with which a saved group is placed (R127). -/
def SavedGrp.effPrio (v : SavedGrp) : Nat := if v.promoted then 0 else v.prio

/-- A saved group goes before another of its launch: one that places as priority 0, then in walk order (R122, R127). -/
def SavedGrp.before (v w : SavedGrp) : Bool :=
  decide (v.effPrio < w.effPrio) || (decide (v.effPrio = w.effPrio) && decide (v.ordinal ≤ w.ordinal))

/-- The saved group of a launch that is placed next: as its tasks do, the groups of a launch go in walk order (R122, R127). -/
def State.resumable (s : State) (n : Nat) : Option SavedGrp :=
  (sortBy SavedGrp.before (s.saved.filter (fun v => v.launch = n && v.queued))).head?

/-- A saved group waiting for a core: for the one that is reserved for it, where one is (R125). -/
def SavedGrp.waiter (v : SavedGrp) (fixed : Option Reserved) : Waiter := ⟨v.launch, v.effPrio, v.shape, some v, v.ordinal, fixed⟩

/-- The saved groups of a concurrent launch that may be placed, each where it is reserved a place, in walk order (R125, R127). -/
def Launch.resumed (s : State) (n : Nat) (l : Launch) : List Waiter :=
  (sortBy SavedGrp.before (s.saved.filter (fun v => v.launch = n && v.queued))).map (fun v =>
    v.waiter (l.reserved.find? (fun r => r.ordinal = v.ordinal)))

/-- What a launch has waiting: a saved group first, then its next task; of a concurrent launch each saved group, and under its
reservation each task not yet placed, in walk order (R122, R125, R127). -/
def Launch.waiters (s : State) (n : Nat) (l : Launch) : List Waiter :=
  let mk (o : Nat) (f : Option Reserved) : Waiter := ⟨n, l.record.prio, l.record.shape n, none, o, f⟩
  if l.suspended then []
  else if l.record.cls = 0 then
    l.resumed s n ++ (if l.holds then (l.reserved.filter (fun r => !r.placed)).map (fun r => mk r.ordinal (some r)) else [])
  else
    match s.resumable n with
    | some v => [v.waiter none]
    | none => if l.unplaced then [mk l.next none] else []

/-- A waiter goes before another: the lower priority number, then the launch admitted first (R123). -/
def insertWaiter (w : Waiter) : List Waiter → List Waiter
  | [] => [w]
  | x :: t => if w.prio < x.prio || (w.prio = x.prio && w.launch ≤ x.launch) then w :: x :: t else x :: insertWaiter w t

/-- Everything that waits in a partition, in order (R123). -/
def State.waitersOf (s : State) (part : Nat) : List Waiter :=
  ((s.launches.filter (fun p => p.2.record.part = part)).flatMap (fun p => p.2.waiters s p.1)).foldr insertWaiter []

/-- A task of the launch is pending: also one of a concurrent launch that waits its turn (R125, R127). -/
def Launch.pending (l : Launch) (part : Nat) : Bool := decide (l.record.part = part) && l.unplaced && !l.suspended

/-- A weakly parallel group that was pre-empted waits while anything of a lower priority number does in its partition (R127). -/
def Waiter.heldBack (s : State) (w : Waiter) (all : List Waiter) : Bool :=
  match w.saved with
  | some v => decide (v.cls = 2)
      && (all.any (fun x => x.prio < w.prio) || s.launches.any (fun p => p.2.pending w.shape.part && p.2.record.prio < w.prio))
  | none => false

/-- Where a waiter can be placed now. -/
def Waiter.room (s : State) (w : Waiter) : Option (Nat × Nat × Nat) :=
  match w.fixed with
  | some r => (canHold s w.shape r.core [] (some r.granule)).map (fun q => (r.core, q.1, q.2))
  | none => findRoom s w.shape ((s.launchAt w.launch).bind (fun l => l.cursor))

/-- The launch after one of its waiters has been placed on a core. -/
def Launch.afterPlacing (l : Launch) (w : Waiter) (core : Nat) : Launch :=
  let l := { l with cursor := some core }
  if w.saved.isSome then l
  else { l with
    placed := l.placed + 1, next := if w.fixed.isSome then l.next else l.next + 1
    reserved := l.reserved.map (fun r => if r.ordinal = w.ordinal then { r with placed := true } else r) }

/-- A cluster is fused by the first group that a launch with L1FUSE = 1 places there (R128): its lines are written back first. -/
def fuseFor (s : State) (p : Shape) (core : Nat) : State :=
  let k := clusterOf core
  let u := s.clusterAt k
  if p.fuse && u.fused.isNone then s.setCluster k { u with fused := some p.launch, busy := true } else s

/-- A slot of a save pool is free again (R430). -/
def State.freeSlot (s : State) (part : Nat) (slot : Option Nat) : State :=
  match slot with
  | none => s
  | some k => let u := s.partAt part; s.setPart part { u with slots := u.slots.filter (fun x => x ≠ k) }

/-- PLACING (R118, R432): a task's context is made on the chosen core, or a saved group's restored there. -/
def place (s : State) (w : Waiter) (l : Launch) (core slot granule : Nat) : State :=
  let s := fuseFor s w.shape core
  let s := s.setLaunch w.launch (l.afterPlacing w core)
  let u := s.coreAt core
  let base := granule * 4096
  let u := { u with owner := setOwners u.owner (some w.launch) (upFrom granule w.shape.spad) }
  let tag := core * 16 + slot
  match w.saved with
  | none => takeTurn ((s.setCore core u).setGrp tag (newGroup w.launch l w.ordinal core slot base)) w.shape.part
  | some v =>
    let g := restoreGroup s v core slot base
    let u := { u with
      blocks := u.blocks.filter (fun b => b.launch ≠ w.launch), blockPast := u.blockPast.filter (fun k => k.1 ≠ w.launch) }
    let s := restoreSpad ((s.setCore core u).setGrp tag g) v core base
    { s.freeSlot v.part v.slot with saved := s.saved.erase v }

/-- Lists of `k` elements in their order, those with earlier elements first. -/
def choices {α : Type} : Nat → List α → List (List α)
  | 0, _ => [[]]
  | _ + 1, [] => []
  | k + 1, x :: t => (choices k t).map (fun r => x :: r) ++ choices (k + 1) t

/-- The area of a slot (R430). -/
def State.slotArea (s : State) (part slot : Nat) : Nat :=
  bitsOf (s.partAt part).savePool.toNat 18 34 * 2 ^ 18 + slot * 2 ^ 18

/-- The free slots of a partition's pool (R430); one that is in no memory is none (R477). -/
def State.freeSlots (s : State) (part : Nat) : List Nat :=
  let u := s.partAt part
  (upTo (bitsOf u.savePool.toNat 0 16)).filter (fun k => !u.slots.contains k && areaNames s.dieMask (s.slotArea part k) (2 ^ 18))

/-- A group may be pre-empted by something of priority `p` (R126). -/
def Grp.victim (g : Grp) (part p : Nat) : Bool :=
  decide (g.part = part) && decide (g.cls ≠ 0) && decide (g.placePrio > p) && g.save.isNone
    && (match g.run with | .running | .parked _ | .halted => true | _ => false)

/-- A group asked to halt and be saved to a slot of its partition's pool (R126, R427, R430). -/
def askSave (s : State) (tag slot : Nat) (queued : Bool) : State :=
  match s.grp tag with
  | none => s
  | some g =>
    let u := s.partAt g.part
    let r : SaveReq := { area := s.slotArea g.part slot, slot := some slot, queued := queued }
    (s.setPart g.part { u with slots := u.slots ++ [slot] }).setGrp tag { g with
      save := some r, halt := decide (g.run = .running) }

/-- Groups asked to halt, each with a slot, as long as there are slots (R430). -/
def askSaves (s : State) (part : Nat) (queued : Bool) : List Nat → Option State
  | [] => some s
  | t :: rest => (s.freeSlots part).head?.bind (fun k => askSaves (askSave s t k queued) part queued rest)

/-- The victims on one core for a waiter: the fewest groups that make room, and of those the youngest first (R126). Groups that
already leave count as gone, and no more are taken than there are free slots to save them in (R429). -/
def victimsOn (s : State) (w : Waiter) (c : Nat) : Option (List Nat) :=
  let gone := ((s.groupsOf c).filter (fun g => g.save.isSome)).map (fun g => g.tag)
  let vs := (sortBy (fun a b => b.older a) ((s.groupsOf c).filter (fun g => g.victim w.shape.part w.prio))).map (fun g => g.tag)
  let fixed := w.fixed.map (fun r => r.granule)
  (upTo (min vs.length (s.freeSlots w.shape.part).length + 1)).findSome? (fun k =>
    (choices k vs).find? (fun pick => (canHold s w.shape c (gone ++ pick) fixed).isSome))

/-- A waiter that no core can hold pre-empts (R126): on the first core from the cursor where that makes room. None where no group
is asked that has not been already. -/
def preempt (s : State) (w : Waiter) : Option State :=
  let cores := match w.fixed with
    | some r => [r.core]
    | none => searchOrder ((s.launchAt w.launch).bind (fun l => l.cursor))
  match cores.findSome? (fun c => victimsOn s w c) with
  | some (t :: ts) => askSaves s w.shape.part true (t :: ts)
  | _ => none

/-- What a walker does for one waiter: it places it, or makes room for it. The monitors sample a launch as its first task is placed (R448,
log entry 18). -/
def serve (s : State) (w : Waiter) : Option State := do
  let l ← s.launchAt w.launch
  match w.room s with
  | some (c, k, b) =>
    let s' := place s w l c k b
    some (if l.placed = 0 then sampleCore s' c 7 l.record.part none else s')
  | none => preempt s w

/-- The partitions that have launches. -/
def State.launchParts (s : State) : List Nat := (s.launches.map (fun p => p.2.record.part)).dedup

/-- A walker places a task (R118, R122, R123), or asks victims to halt (R126): for the first waiter of a partition, in its order,
for which there is something to do, when it is a launch of this walker's. -/
def tryTaskPlace (s : State) (die : Nat) : Option State :=
  s.launchParts.findSome? (fun part =>
    let s := takeTurn s part
    let all := s.waitersOf part
    let can := all.filter (fun w => !w.heldBack s all && (serve s w).isSome)
    match can with
    | w :: _ =>
      if (s.launchAt w.launch).any (fun l => l.record.home = die) then serve s w else none
    | [] => none)

/-- TASK_PLACE (R118). -/
def execTaskPlace (die : Nat) (s : State) : Result := eventResult s (tryTaskPlace s die)

/-- A parallel-class group that has waited 2^20 cycles places as priority 0 (R127). -/
def tryPromotion (s : State) (launch ordinal : Nat) : Option State := do
  let v ← s.saved.find? (fun v => v.launch = launch && v.ordinal = ordinal)
  if v.cls = 1 ∧ v.queued ∧ !v.promoted ∧ v.since + 2 ^ 20 ≤ s.cycle then
    some { s with saved := s.saved.replace v { v with promoted := true } }
  else none

/-- PRIORITY_PROMOTION (R127). -/
def execPriorityPromotion (launch ordinal : Nat) (s : State) : Result := eventResult s (tryPromotion s launch ordinal)

/-- The write-back of a cluster that fuses or unfuses ends (R128). -/
def tryFuseComplete (s : State) (cluster : Nat) : Option State :=
  let u := s.clusterAt cluster
  if u.busy then some (s.setCluster cluster { u with busy := false }) else none

/-- FUSE_WRITE_BACK_COMPLETE (R128). -/
def execFuseWriteBackComplete (cluster : Nat) (s : State) : Result := eventResult s (tryFuseComplete s cluster)

end Sys2Proof.Machine
end

