-- ==== Sys2Proof/Machine/Retire.lean ====
section
/-!
DEFINITION. Retirement (R441, R442), scrubbing (R443-R445), partition changes (R130), the context words (R437-R440), RESUME
(R424), soft errors (R426) and partition teardown (R446, R447).
-/
namespace Sys2Proof.Machine

/-- A launch after one of its tasks has retired: what was reserved for the task is released (R125, R398, R441, R442). -/
def Launch.afterRetire (l : Launch) (ordinal : Nat) (err : Bool) : Launch :=
  { l with
    retired := l.retired + 1, gbars := l.gbars.filter (fun o => o ≠ ordinal), error := l.error || err
    reserved := l.reserved.filter (fun r => r.ordinal ≠ ordinal) }

/-- A task retires (R441): after `end`, or, terminated, once its committed work has drained as for a save, its own copies of
scratchpad among it (R346, R424, R428). Feed copies that no form claimed are forgotten. -/
def tryTaskRetire (s : State) (tag : Nat) : Option State := do
  let g ← s.grp tag
  let err := decide (g.run = .terminated)
  if !(g.run = .ended || (err && g.settledAll)) || g.copying s then none
  else
    let s := releaseGroup s tag g false
    let s := s.freeSlot g.part (g.save.bind (fun r => r.slot))
    let u := s.coreAt g.core
    let s := s.setCore g.core { u with copies := u.copies.filter (fun j =>
      !(j.launch = g.launch && j.ordinal = g.ordinal && j.feed && j.closed)) }
    match s.launchAt g.launch with
    | some l => some (s.setLaunch g.launch (l.afterRetire g.ordinal err))
    | none => some s

/-- TASK_RETIRE (R441). -/
def execTaskRetire (gtag : Nat) (s : State) : Result := eventResult s (tryTaskRetire s gtag)

/-- A write of PCORE (R130): the change waits for the core to be empty and scrubbed. -/
def writePcore (s : State) (core value : Nat) : State :=
  if core < Config.cores then s.setCore core { s.coreAt core with pending := some (value % 256) } else s

/-- PCORE_WRITE (R130). -/
def execPcoreWrite (core : Nat) (value : BitVec 8) (s : State) : Result := .next (writePcore s core value.toNat)

/-- A reservation holds something on a core (R130). DESIGN CHOICE (log entry 35): the assignment of a concurrent launch that waits its
turn counts as one. -/
def State.reservedAny (s : State) (c : Nat) : Bool :=
  s.launches.any (fun p => p.2.reserved.any (fun r => r.core = c && s.awaits p.1 r))

/-- A change of a core's partition may be scrubbed for: nothing is on the core (R130, R445). -/
def State.coreEmpty (s : State) (c : Nat) : Bool := decide (s.groupsOf c = []) && !s.reservedAny c

/-- The scratchpad of a core that no group holds, zero (R440, R443). -/
def scrubSpad (s : State) (c : Nat) : State :=
  let held := (s.groupsOf c).flatMap (fun g => g.holding.run)
  (upTo Config.granules).foldl (fun s n => if held.contains n then s else s.clearSpad c (n * 4096) 4096) s

/-- The event of a scrub's counter that does not translate (R478): to the supervisor. -/
def Scrub.fault (b : Scrub) : Report :=
  { cause := 0x28, part := 255, launch := b.launch % 2 ^ 32, pc := b.pc, hdr := b.hdr, a1 := b.pc.toNat }

/-- The counter of a scrub raised; none where its address waits for the host (then the requests that are sent). -/
def raiseScrub (s : State) (target : Nat) (b : Scrub) (k : State → State) : Option State :=
  let w : Agent :=
    { unit := unitCounter, a := 2 ^ 41, b := target, part := b.part, launch := b.launch, gtag := b.gtag, pc := b.pc, hdr := b.hdr }
  match raiseCounter s w b.counter false b.fault with
  | .wait s' => ifMoved s s'
  | .done s => some (k s)

/-- What a `scrub` of kind 00 does to a core (R440, R445). -/
def scrubCore (s : State) (c : Nat) : State :=
  let s := scrubSpad s c
  s.setCore c { s.coreAt c with icache := [], scrub := none }

/-- The scrubs pending on a core complete (R443-R445): released contexts, a `scrub` of the core, a change of its partition. -/
def tryScrubCore (s : State) (c : Nat) : Option State :=
  let u := s.coreAt c
  let change := u.pending.isSome && s.coreEmpty c
  if u.releases = [] && u.scrub.isNone && !change then none
  else
    let s := u.releases.foldl (fun s h => s.clearSpad c (h.granule * 4096) (h.granules * 4096)) s
    let s := s.setCore c { s.coreAt c with releases := [] }
    let s := u.releases.foldl (fun s _ => sampleCore s c 9 u.part none) s
    let s := if change then
        let s := scrubCore s c
        s.setCore c { s.coreAt c with scrub := u.scrub, part := u.pending.getD 0, pending := none }
      else s
    match u.scrub with
    | none => some s
    | some b => raiseScrub s c b (fun s => scrubCore s c)

/-- The scrub of a partition's lines completes (R440): memory is not behind any line of the model (log entry 6). -/
def tryScrubPart (s : State) (p : Nat) : Option State := do
  let b ← (s.partAt p).scrub
  raiseScrub s (2 ^ 16 + p) b (fun s => s.setPart p { s.partAt p with scrub := none })

/-- The number of a partition as the target of a scrub: cores come first. -/
abbrev scrubPart0 : Nat := Config.cores

/-- The scrub of a target completes: of a core by its number, of partition p as 1,024 + p. -/
def tryScrubComplete (s : State) (target : Nat) : Option State :=
  if target < scrubPart0 then tryScrubCore s target else tryScrubPart s (target - scrubPart0)

/-- SCRUB_COMPLETE (R444). -/
def execScrubComplete (target : Nat) (s : State) : Result := eventResult s (tryScrubComplete s target)

/-- The trap record of a token has still to be posted (R421). -/
def State.recordWaits (s : State) (part token : Nat) : Bool := (s.partAt part).waiting.any (fun w => w.token = token)

/-- The parked group that holds a token not yet used, where its record has been posted (R418, R421, R424). -/
def State.holderOf (s : State) (token : Nat) : Option (Nat × Grp) :=
  (List.find? (fun p => p.2.run = .parked token && !(p.2.save.any (fun r => r.act.isSome))) s.groups).filter (fun p =>
    !s.recordWaits p.2.part token)

/-- The saved group that holds a token not yet used, where its record has been posted. -/
def State.savedHolder (s : State) (token : Nat) : Option SavedGrp :=
  s.saved.find? (fun v => v.token = some token && !v.resumed && !v.terminate && !s.recordWaits v.part token)

/-- A launch is suspended (R438). -/
def State.suspends (s : State) (n : Nat) : Bool := (s.launchAt n).any (fun l => l.suspended)

/-- What RESUME makes of a resident parked group (R424): one that is to be saved goes on when it is placed again, and one of a
suspended launch is held until that is resumed (R438). -/
def Grp.resume (g : Grp) (s : State) (act : Nat) : Grp :=
  match g.save with
  | some r => { g with save := some { r with act := some act } }
  | none =>
    { g with
      token := 0, run := if act ≠ 0 then .terminated else if s.suspends g.launch then .halted else .running }

/-- A write of RESUME (R424). -/
def writeResume (s : State) (x : W64) : State :=
  let act := bitsOf x.toNat 62 2
  let token := bitsOf x.toNat 0 32
  let bad := postEvent s { cause := 0x24, part := 255, a0 := x.toNat }
  if act ≥ 2 ∨ bitsOf x.toNat 32 30 ≠ 0 then bad
  else
    match s.holderOf token with
    | some (tag, g) => s.setGrp tag (g.resume s act)
    | none =>
      match s.savedHolder token with
      | some v => { s with saved := s.saved.replace v { v with resumed := decide (act = 0), terminate := decide (act = 1) } }
      | none => bad

/-- RESUME (R424). -/
def execResume (value : BitVec 64) (s : State) : Result := .next (writeResume s value)

/-- TERMINATE (R424). -/
def execTerminate (value : BitVec 64) (s : State) : Result := .next ((fun x => writeResume s x) value)

/-- An uncorrectable soft error terminates a group (R424, R426), and posts SOFTERR with its GTAG. -/
def trySoftError (s : State) (tag structure_ : Nat) : Option State := do
  let g ← s.grp tag
  if structure_ = 0 ∨ structure_ > 5 ∨ g.run = .ended ∨ g.run = .terminated then none
  else
    let s := (withdraw { s with lmaps := s.lmaps.filter (fun p => p.gtag ≠ tag) } tag g).rollBack tag
    let s := s.modGrp tag (fun g => { g with run := .terminated, clause := [], partly := [], asked := none, halt := false })
    some (postEvent s { cause := 0x25, detail := structure_, part := g.part, gtag := tag, launch := g.launch % 2 ^ 32 })

/-- SOFT_ERROR (R426). -/
def execSoftError (gtag structure_ : Nat) (s : State) : Result := eventResult s (trySoftError s gtag structure_)

/-- A context word (R437): its checks, and its operands. -/
def ctxWord (c : Check) (f : FS) (sb : Bool) (body : State → Nat → Grp → Nat → Issue) (s : State) : Result :=
  .next (issueControl
    { check := c, level := .supervisor, reads := if sb then [f.sa, f.sb] else [f.sa], writes := [f.sd], drained := true }
    (fun s tag g => body s tag g (g.reg f.sa.toNat).toNat) s)

/-- The groups of a launch that are resident and can still be saved. -/
def State.residents (s : State) (n : Nat) : List Nat :=
  (s.groups.filter (fun p => p.2.launch = n && p.2.save.isNone && p.2.run ≠ .ended && p.2.run ≠ .terminated)).map Prod.fst

/-- Groups asked to halt, those for which a slot is left to be saved (R438): whether there were slots for all. -/
def suspendAll (s : State) : List Nat → State × Bool
  | [] => (s, true)
  | t :: rest =>
    match s.grp t with
    | none => suspendAll s rest
    | some g =>
      match (s.freeSlots g.part).head? with
      | some k => suspendAll (askSave s t k false) rest
      | none => ((suspendAll (s.setGrp t { g with halt := decide (g.run = .running) }) rest).1, false)

/-- `ctxsave` of the launch that a LAUNCH names (R438). -/
def saveLaunch (s : State) (tag : Nat) (g : Grp) (sd : BitVec 6) (k : Nat) : Issue :=
  match s.launchNamed k with
  | none => doneWith s tag g sd 1
  | some (n, l) =>
    let (s, all) := suspendAll (s.setLaunch n { l with suspended := true }) (s.residents n)
    .done (s.modGrp tag (fun g => g.writeReg sd.toNat (if all then 0 else 2)))

/-- The group of a token is to be saved still. -/
def State.toSave (s : State) (token : Nat) : Bool :=
  s.groups.any (fun p => p.2.run = .parked token && p.2.save.isSome)

/-- The group of a token has been saved where a `ctxsave` asked for it: in an area, or, where that is 0, in a slot of the pool. -/
def State.savedIn (s : State) (token area : Nat) : Bool :=
  s.saved.any (fun v => v.token = some token && (if area = 0 then v.slot.isSome else v.area = area))

/-- Where a `ctxsave` has a parked group saved (R438): the area given, or a slot of the pool; one that is to be saved already gives
up its slot for the area, and keeps it otherwise. None where no slot is left. -/
def askArea (s : State) (tag : Nat) (g : Grp) (area : Nat) : Option State :=
  let old := g.save.bind (fun r => r.slot)
  if area ≠ 0 then
    some ((s.freeSlot g.part old).setGrp tag { g with save := some { area := area, slot := none, queued := false } })
  else if old.isSome then some s
  else (s.freeSlots g.part).head?.map (fun k => askSave s tag k false)

/-- Where a `ctxsave` moves the area of a parked group that is saved already (R418, R438): to the area given, or to a slot of the pool
where it has none. It stays there till a `ctxload`. None where no slot is left. -/
def moveArea (s : State) (v : SavedGrp) (area : Nat) : Option State :=
  let bytes := Memory.readBytes s.mem v.area v.areaSize
  let put (s : State) (a : Nat) (slot : Option Nat) : State :=
    { s with mem := Memory.writeBytes s.mem a bytes, saved := s.saved.replace v { v with area := a, slot := slot, queued := false } }
  if area ≠ 0 then some (put (s.freeSlot v.part v.slot) area none)
  else if v.slot.isSome then some (put s v.area v.slot)
  else
    (s.freeSlots v.part).head?.map (fun k =>
      let u := s.partAt v.part
      put (s.setPart v.part { u with slots := u.slots ++ [k] }) (s.slotArea v.part k) (some k))

/-- The status of a `ctxsave` whose area cannot be taken (R438). DESIGN CHOICE (log entry 20): that of an area which names no memory. -/
def badArea (s : State) (area size : Nat) : Option Nat :=
  if area % 4096 ≠ 0 then some 4
  else if area ≠ 0 && !areaNames s.dieMask area size then some (Config.unstated 11 [area])
  else none

/-- `ctxsave` of a parked group (R438), resident or saved already: the word completes once the area is written. -/
def saveToken (s : State) (tag : Nat) (g : Grp) (sd : BitVec 6) (token area : Nat) : Issue :=
  let g0 := { g with saveWait := none }
  if g.saveWait.isSome && s.toSave token then .stall s
  else if g.saveWait.isSome && s.savedIn token area then doneWith s tag g0 sd 0
  else
    match s.holderOf token, s.savedHolder token with
    | none, none => doneWith s tag g0 sd 1
    | some (t, h), _ =>
      (match badArea s area h.areaSize with
       | some k => doneWith s tag g0 sd k
       | none =>
         match askArea s t h area with
         | some s => .stall (s.modGrp tag (fun g => { g with saveWait := some token }))
         | none => doneWith s tag g0 sd 2)
    | none, some v =>
      (match badArea s area v.areaSize with
       | some k => doneWith s tag g0 sd k
       | none =>
         match moveArea s v area with
         | some s => doneWith s tag g0 sd 0
         | none => doneWith s tag g0 sd 2)

/-- `ctxsave` (R437, R438). Of several statuses a reserved bit comes first (log entry 20). -/
def execCtxsave (f : FS) (s : State) : Result :=
  ctxWord (f.check true true true false) f true (fun s tag g a =>
    if bitsOf a 32 31 ≠ 0 then doneWith s tag g f.sd 3
    else if bitOf a 63 then saveLaunch s tag g f.sd (a % 2 ^ 32)
    else saveToken s tag g f.sd (a % 2 ^ 32) (g.reg f.sb.toNat).toNat) s

/-- The shape fields of a saved group as an area holds them (R431). -/
def SavedGrp.fromArea (s : State) (v : SavedGrp) (a : Nat) : SavedGrp :=
  let d0 := areaDword s a 0
  let d5 := areaDword s a 0x28
  { v with
    area := a, slot := if v.area = a then v.slot else none, queued := true
    nreg := bitsOf d0 8 8, nacc := bitsOf d0 16 3, spad := bitsOf d0 19 6
    vl := bitsOf d0 25 9, part := bitsOf d5 0 8, prio := bitsOf d5 8 3, cls := bitsOf d5 11 2, fuse := bitOf d5 13 }

/-- `ctxload` of a save area (R439). A group that is in its own slot of the pool keeps that until it is placed. An area whose group
the device does not hold as saved has no effect and an unstated status (log entry 16). -/
def loadArea (s : State) (tag : Nat) (g : Grp) (sd : BitVec 6) (a : Nat) : Issue :=
  if a % 4096 ≠ 0 then doneWith s tag g sd 4
  else if !areaOk s a then doneWith s tag g sd 3
  else
    let n := areaDword s a 0x18
    let o := areaDword s a 0x20
    if n < s.nextLaunch && (s.launchNamed n).isNone then doneWith s tag g sd 5
    else
      match s.saved.find? (fun v => v.launch % 2 ^ 32 = n && v.ordinal = o && !v.queued) with
      | none => doneWith s tag g sd (Config.unstated 11 [a])
      | some v =>
        let s := { s with saved := s.saved.replace v (v.fromArea s a) }
        doneWith (if v.area = a then s else s.freeSlot v.part v.slot) tag g sd 0

/-- `ctxload` of the launch that a LAUNCH names (R439): its groups saved to the pool are queued, or will be once they are, and those that keep their
places run again. -/
def loadLaunch (s : State) (tag : Nat) (g : Grp) (sd : BitVec 6) (k : Nat) : Issue :=
  match s.launchNamed k with
  | none => doneWith s tag g sd (if k < s.nextLaunch then 5 else 1)
  | some (n, l) =>
    if !l.suspended then doneWith s tag g sd 1
    else
      let s := s.setLaunch n { l with suspended := false }
      let queue (v : SavedGrp) : SavedGrp := if v.launch = n && v.slot.isSome then { v with queued := true } else v
      let wake (h : Grp) : Grp :=
        if h.launch ≠ n then h
        else
          match h.save with
          | some r => { h with save := some { r with queued := r.queued || r.slot.isSome } }
          | none => { h with halt := false, run := if h.run = .halted then .running else h.run }
      let s := { s with saved := s.saved.map queue, groups := s.groups.map (fun (p : Nat × Grp) => (p.1, wake p.2)) }
      .done (s.modGrp tag (fun g => g.writeReg sd.toNat 0))

/-- `ctxload` (R437, R439). -/
def execCtxload (f : FS) (s : State) : Result :=
  ctxWord (f.check true true false false) f false (fun s tag g a =>
    if bitOf a 63 then
      (if bitsOf a 32 31 ≠ 0 then doneWith s tag g f.sd 3 else loadLaunch s tag g f.sd (a % 2 ^ 32))
    else loadArea s tag g f.sd a) s

/-- A partition that no working core belongs to is unused (R440), and so is 0xFF, which is none (R129). -/
def State.unusedPart (s : State) (p : Nat) : Bool := !(upTo Config.cores).any (fun c => s.inPart c p)

/-- `scrub` (R437, R440). -/
def execScrub (f : FS) (s : State) : Result :=
  ctxWord (f.check true true true false) f true (fun s tag g a =>
    let b : Scrub :=
      { counter := g.reg f.sb.toNat, part := g.part, gtag := tag, pc := g.pc, hdr := g.hdr, launch := g.launch }
    let start (s : State) : Issue := doneWith s tag g f.sd 0
    match bitsOf a 62 2 with
    | 0 =>
      let u := s.coreAt a
      if a ≥ Config.cores then doneWith s tag g f.sd 3
      else if s.lanes a = 0 then doneWith s tag g f.sd 1
      else if u.scrub.isSome then doneWith s tag g f.sd 2
      else start (s.setCore a { u with scrub := some b })
    | 1 =>
      let p := a % 2 ^ 62
      let u := s.partAt p
      if p ≥ 256 then doneWith s tag g f.sd 3
      else if s.unusedPart p then doneWith s tag g f.sd 1
      else if u.scrub.isSome then doneWith s tag g f.sd 2
      else start (s.setPart p { u with scrub := some b })
    | _ => doneWith s tag g f.sd 3) s

/-- A TEARDOWN event (R447), to the supervisor. -/
def teardownReport (detail skipped : Nat) : Report := { cause := 0x27, detail := detail, part := 255, a0 := skipped }

/-- The near-memory frame that an entry of a frame list names (R446), as a device physical address. -/
def teardownFrame (mask x : Nat) : Option Nat :=
  if x % 2 ^ 16 = 0 ∧ x < 2 ^ 34 ∧ diePresent mask (x / 2 ^ 31) then some (2 ^ 48 + x) else none

/-- The entries of a frame list (R446): each a frame, or none where it names no near-memory frame or lies in no memory (R477). -/
def frameList (mask : Nat) (m : Memory) (list : Nat) : Nat → List (Option Nat)
  | 0 => []
  | n + 1 =>
    (if namesMemory mask list then teardownFrame mask (Memory.readNat m list 8) else none) :: frameList mask m (list + 8) n

/-- Frames of 64 KiB zeroed (R447). -/
def zeroFrames (m : Memory) (fs : List Nat) : Memory := fs.foldl (fun m pa => Memory.clear m pa (2 ^ 16)) m

/-- A write of PTEAR's first dword (R446, R447). An accepted GO zeroes the frames of the list, so that from then on an access reads
zero there or what is written after it. DESIGN CHOICE (log entry 35): PART = 255 is discarded as R447's cases are, and the list is read
at the GO write. -/
def writeTeardown (s : State) (x : W64) : State :=
  let p := bitsOf x.toNat 0 8
  let t := { s.teardown with part := p, nfr := bitsOf x.toNat 8 32 }
  if !x.getLsbD 63 then { s with teardown := t }
  else if s.teardown.busy || s.cores.any (fun c => c.2.pending.isSome) || (upTo Config.cores).any (fun c => (s.coreAt c).part = p)
      || (s.partAt p).root.getLsbD 63 || decide (bitsOf x.toNat 40 22 ≠ 0) || p = 255 then
    postEvent s (teardownReport 1 0)
  else
    let list := frameList s.dieMask s.mem t.flist.toNat t.nfr
    let frames := list.filterMap id
    { s with
      mem := zeroFrames s.mem frames
      teardown := { t with busy := true, frames := frames, skipped := list.length - frames.length } }

/-- TEARDOWN (R447). -/
def execTeardown (value : BitVec 64) (s : State) : Result := .next (writeTeardown s value)

/-- Frames zeroed again or not, each as the device chooses: what software writes there before the event may be lost (R447). -/
def State.zeroAgain (s : State) : List Nat → State
  | [] => s
  | pa :: rest =>
    let (k, s) := s.choose 2
    (if k = 0 then s else { s with mem := Memory.clear s.mem pa (2 ^ 16) }).zeroAgain rest

/-- Teardown finishes (R447). -/
def tryTeardownDone (s : State) : Option State :=
  if !s.teardown.busy then none
  else
    let s' := s.zeroAgain s.teardown.frames
    some (postEvent { s' with teardown := { s.teardown with busy := false, frames := [] } } (teardownReport 0 s.teardown.skipped))

/-- TEARDOWN_DONE (R447). -/
def execTeardownDone (s : State) : Result := eventResult s (tryTeardownDone s)

end Sys2Proof.Machine
end

