-- ==== Sys2Proof/Machine/Host.lean ====
section
/-!
DEFINITION. Host writes and reads of the device's registers (R28, R97, R100, R129, R303, R310, R321, R358, R375, R420, R421, R424, R430,
R446, R479), posted writes (R105) and reset. One event is one write of one register at its width (log entry 21).
-/
namespace Sys2Proof.Machine

/-- A RIDX value that lies ahead of WIDX is discarded (R421). -/
def aheadOf (widx value : Nat) : Bool :=
  let d := (value + 2 ^ 32 - widx) % 2 ^ 32
  decide (1 ≤ d) && decide (d < 2 ^ 31)

/-- A write of FQRIDX (R420, R421): waiting records are tried again. Index 255 discards it. -/
def writeFqridx (s : State) (p value : Nat) : State :=
  let u := s.partAt p
  let v := value % 2 ^ 32
  if p ≥ 255 || aheadOf u.fqwidx v then s
  else retryTraps (s.setPart p { u with fqridx := v }) p u.waiting.length

/-- FQRIDX_WRITE (R421). -/
def execFqridxWrite (part : Nat) (value : BitVec 64) (s : State) : Result := .next (writeFqridx s part value.toNat)

/-- A write of EQRIDX (R420, R421). -/
def writeEqridx (s : State) (p value : Nat) : State :=
  let u := s.partAt p
  let v := value % 2 ^ 32
  if p > 255 || aheadOf u.eqwidx v then s else s.setPart p { u with eqridx := v }

/-- EQRIDX_WRITE (R421). -/
def execEqridxWrite (part : Nat) (value : BitVec 64) (s : State) : Result := .next (writeEqridx s part value.toNat)

/-- EQOVFL_READ (R420): the count is cleared by the read. -/
def execEqovflRead (part : Nat) (s : State) : Result :=
  .next (if part > 255 then s else s.setPart part { s.partAt part with eqovfl := 0 })

/-- The bits of FQBASE and EQBASE that are written (R420). -/
abbrev ringBits : W64 := 0x01FFFFFFFFFFFFDF

/-- A write of FQBASE (R420, R421): waiting records are tried again. Index 255 discards it. -/
def writeFqbase (s : State) (p : Nat) (value : W64) : State :=
  let u := s.partAt p
  if p ≥ 255 then s else retryTraps (s.setPart p { u with fqbase := value &&& ringBits }) p u.waiting.length

/-- FQBASE_WRITE (R421). -/
def execFqbaseWrite (part : Nat) (value : BitVec 64) (s : State) : Result := .next (writeFqbase s part value)

/-- MSI_X_UNMASK (R421): a message pending on the vector is sent. -/
def execMsiXUnmask (vector : Nat) (s : State) : Result :=
  .next (if vector ≥ 512 || s.msixUnmasked.contains vector then s
    else
      let s := { s with msixUnmasked := s.msixUnmasked ++ [vector] }
      if s.msixPending.contains vector then
        { s with msixPending := s.msixPending.erase vector, msixSent := s.msixSent ++ [vector] }
      else s)

/-- Bytes written from a device physical address, those that name memory (R477). -/
def postedBytes (mask : Nat) (m : Memory) (a : Nat) : List Byte → Memory
  | [] => m
  | b :: t => postedBytes mask (if namesMemory mask a then Memory.write m a b else m) (a + 1) t

/-- HOST_POSTED_WRITE (R105): the bytes of one posted write, at its place in the order of the ingress point. -/
def execHostPostedWrite (addr : BitVec 64) (data : List (BitVec 8)) (s : State) : Result :=
  .next { s with mem := postedBytes s.dieMask s.mem addr.toNat data }

/-- A register of a partition's block at 0x34000 + 64p written (R420). -/
def writeRing (s : State) (p off : Nat) (value : W64) : State :=
  let u := s.partAt p
  match off with
  | 0x00 => writeFqbase s p value
  | 0x10 => writeFqridx s p value.toNat
  | 0x18 => s.setPart p { u with eqbase := value &&& ringBits }
  | 0x28 => writeEqridx s p value.toNat
  | 0x30 => if p = 255 then s else s.setPart p { u with tvec := value }
  | _ => s

/-- A dword of CKWIN[k] written (R375); its other bits stay zero. -/
def writeWindow (s : State) (k half : Nat) (value : W64) : State :=
  let w := FMap.get (0, 0) s.windows k
  let new := if half = 0 then (value &&& 0x8000000000001FFF, w.2) else (w.1, value &&& 0x000FFFFFE000FFFF)
  { s with windows := FMap.set (0, 0) s.windows k new }

/-- Registers of BAR0 that one partition has (R303, R321, R358, R430). -/
def writePartReg (s : State) (off : Nat) (value : W64) : State :=
  let at_ (base size : Nat) : Nat := (off - base) / size
  let within (base size n : Nat) : Bool := decide (base ≤ off) && decide (off < base + size * n) && decide ((off - base) % size = 0)
  if within 0x30900 2 255 then
    let p := at_ 0x30900 2
    s.setPart p { s.partAt p with share := value.toNat % 2 ^ 9 }
  else if within 0x31000 8 255 then
    let p := at_ 0x31000 8
    s.setPart p { s.partAt p with root := value &&& 0x800FFFFFFFEFFFFF }
  else if within 0x33000 8 255 then
    let p := at_ 0x33000 8
    s.setPart p { s.partAt p with pftag := value.toNat % 2 ^ 16 }
  else if within 0x38000 8 255 then
    let p := at_ 0x38000 8
    s.setPart p { s.partAt p with savePool := value &&& 0x000FFFFFFFFCFFFF }
  else if within 0x34000 8 (8 * 256) then writeRing s ((off - 0x34000) / 64) (off % 64) value
  else if within 0x33800 8 16 then writeWindow s ((off - 0x33800) / 16) ((off - 0x33800) / 8 % 2) value
  else s

/-- A write of an offset of BAR0: to the register there, or discarded (R28, R479). -/
def writeBar0 (s : State) (off : Nat) (value : W64) : State :=
  match off with
  | 0x20000 => { s with qdbase := value }
  | 0x20008 => if value.toNat < Config.queues then resetQueue s value.toNat else s
  | 0x30800 => { s with bandwidth := value &&& 0x800000000001FFFF }
  | 0x32000 => writeInvalidation s value
  | 0x32008 => if value.getLsbD 1 then { s with invalDrop := false } else s
  | 0x38800 => writeResume s value
  | 0x39000 => writeTeardown s value
  | 0x39008 => { s with teardown := { s.teardown with flist := value } }
  | _ =>
    if 0x30000 ≤ off ∧ off < 0x30400 then writePcore s (off - 0x30000) (value.toNat % 256) else writePartReg s off value

/-- A write in a doorbell page other than an accepted one of WPTR (R97, R98): one that is narrower than WPTR posts BADDOORBELL; every
other offset discards it. -/
def writeDoorbell (s : State) (off : Nat) (value : W64) : State :=
  if off / 4096 < Config.queues ∧ off % 4096 < 8 then badDoorbell s (off / 4096) value.toNat else s

/-- REGISTER_WRITE (R479). -/
def execRegisterWrite (bar offset : Nat) (value : BitVec 64) (s : State) : Result :=
  .next (if bar = 0 then writeBar0 s offset value else if bar = 2 then writeDoorbell s offset value else s)

/-- A register of a partition's block at 0x34000 + 64p as the host reads it (R420). -/
def readRing (u : PartUnit) (p off : Nat) : W64 :=
  match off with
  | 0x00 => if p = 255 then 0 else u.fqbase
  | 0x08 => if p = 255 then 0 else BitVec.ofNat 64 u.fqwidx
  | 0x10 => if p = 255 then 0 else BitVec.ofNat 64 u.fqridx
  | 0x18 => u.eqbase
  | 0x20 => BitVec.ofNat 64 u.eqwidx
  | 0x28 => BitVec.ofNat 64 u.eqridx
  | 0x30 => if p = 255 then 0 else u.tvec
  | 0x38 => BitVec.ofNat 64 u.eqovfl
  | _ => 0

/-- Where an offset lies in an array of `n` registers of `size` bytes: which of them begins there. -/
def regIndex (base size n off : Nat) : Option Nat :=
  if base ≤ off ∧ off < base + size * n ∧ (off - base) % size = 0 then some ((off - base) / size) else none

/-- PPEND[k] (R129). -/
def State.ppend (s : State) (k : Nat) : W64 :=
  BitVec.ofNat 64 (ofBits ((upTo 64).map (fun b => (s.coreAt (64 * k + b)).pending.isSome)))

/-- A register of BAR0 of which there are several, as the host reads it (R129, R303, R321, R358, R375, R420, R430). PCORE of a core whose
change is pending reads as it still is, because the core is in that partition (R131, DEDUCED). -/
def readArray (s : State) (off : Nat) : Option W64 :=
  (regIndex 0x30000 1 1024 off).map (fun c => BitVec.ofNat 64 (s.coreAt c).part)
    <|> (regIndex 0x30400 8 16 off).map s.ppend
    <|> (regIndex 0x30480 8 8 off).map (fun d => BitVec.ofNat 64 (s.dieAt d).congestion)
    <|> (regIndex 0x30900 2 255 off).map (fun p => BitVec.ofNat 64 (s.partAt p).share)
    <|> (regIndex 0x31000 8 255 off).map (fun p => (s.partAt p).root)
    <|> (regIndex 0x33000 8 255 off).map (fun p => BitVec.ofNat 64 (s.partAt p).pftag)
    <|> (regIndex 0x33800 8 16 off).map (fun k =>
      let w := FMap.get (0, 0) s.windows (k / 2)
      if k % 2 = 0 then w.1 else w.2)
    <|> (regIndex 0x34000 8 2048 off).map (fun k => readRing (s.partAt (k / 8)) (k / 8) (8 * (k % 8)))
    <|> (regIndex 0x38000 8 255 off).map (fun p => (s.partAt p).savePool)

/-- What a host read of an offset of BAR0 returns (R25, R28, R479): the capability window, a register, or zero where the offset is
assigned to none. QRESET and RESUME are written only. Reading EQOVFL clears it too (`execEqovflRead`). -/
def readBar0 (s : State) (off : Nat) : W64 :=
  match off with
  | 0x20000 => s.qdbase
  | 0x30800 => s.bandwidth
  | 0x32000 => s.invalReg
  | 0x32008 => BitVec.ofNat 64 (bit s.invalDrop * 2 + bit s.invalidation.isSome)
  | 0x39000 => BitVec.ofNat 64 (s.teardown.part + s.teardown.nfr * 2 ^ 8 + bit s.teardown.busy * 2 ^ 62)
  | 0x39008 => s.teardown.flist
  | _ =>
    if 0x1000 ≤ off ∧ off < 0x11000 then BitVec.ofNat 64 (capDword s (off - 0x1000)) else (readArray s off).getD 0

/-- What a host read of an offset of BAR2 returns (R97, R453, R479): WPTR, RPTR or QSTATE of a queue's doorbell page, or zero. -/
def readBar2 (s : State) (off : Nat) : W64 :=
  let q := off / 4096
  if q ≥ Config.queues then 0
  else
    match off % 4096 with
    | 0x000 => BitVec.ofNat 64 (s.queueAt q).wptr
    | 0x008 => BitVec.ofNat 64 (s.queueAt q).rptr
    | 0x010 => BitVec.ofNat 64 (if s.root.halted then 0 else (s.queueAt q).state.num)
    | _ => 0

/-- What a host read of a register of a BAR returns: it changes nothing (R28, R479). -/
def hostRead (s : State) (bar off : Nat) : W64 :=
  if bar = 0 then readBar0 s off else if bar = 2 then readBar2 s off else 0

/-- The device after a reset: every register at its reset value and every engine idle. Memory, scratchpads, the device's number and
its links, which lanes work, and what has left for the host are no registers that reset sets (log entry 22). -/
def resetDevice (s : State) : State :=
  let r := State.reset
  let f := r.fabric
  let cores := s.cores.foldl (fun m c => FMap.set ({} : CoreUnit) m c.1 { ({} : CoreUnit) with lanes := c.2.lanes }) r.cores
  { r with
    mem := s.mem, spad := s.spad, sched := s.sched, cycle := 0, draws := s.draws, cores := cores, msixSent := s.msixSent
    fabric := { f with device := s.fabric.device, links := s.fabric.links, ports := linkRates s.fabric.ports }, hostLink := s.hostLink
    dieMask := s.dieMask }
where
  /-- The trained rates of the links, their buffers empty. -/
  linkRates (m : FMap Port) : FMap Port :=
    m.foldl (fun n p => FMap.set ({} : Port) n p.1 { ({} : Port) with rate := p.2.rate }) []

/-- DEVICE_RESET (R96). -/
def execDeviceReset (s : State) : Result := .next (resetDevice s)

end Sys2Proof.Machine
end

