-- ==== Sys2Proof/Machine/Leases.lean ====
section
/-!
DEFINITION. Memory leases (R367-R374): the four lease words, the lease messages, their deadlines; and the checkpoint drain (R375,
R376).
-/
namespace Sys2Proof.Machine

/-- A word that reads a descriptor at a virtual address, once the group's own stores are performed (R146, R148). What a lender could
not read of it is not stated (log entry 16). -/
def withDescriptor (s : State) (tag : Nat) (g : Grp) (a : W64) (n : Nat) (k : State → List W64 → Issue) : Issue :=
  if !g.quiet 4 then .stall s
  else
    match readDwords s (g.wordAgent tag) a n with
    | .ok s ds => k (s.forget (g.wordAgent tag)) ds
    | .failed s => k (s.forget (g.wordAgent tag)) ((upTo n).map (fun j => BitVec.ofNat 64 (Config.unstated 2 [a.toNat + 8 * j])))
    | .trap s i => .trap s i
    | .wait s => .stall s

/-- A number of nanoseconds in cycles of the 3.6 GHz clock (R25), rounded up. -/
def cyclesOf (ns : Nat) : Nat := ceilDiv (18 * ns) 5

/-- Bytes of a granule (R367). -/
abbrev granule : Nat := 2 ^ 29

/-- RATE that backed leases may take together, in MB/s (R368). -/
abbrev maxRate : Nat := 1050000

/-- A lease descriptor as an entry of the lease table: its fields, the reserve's frame with RTIER apart (R368). -/
def leaseOfDwords (ds : List W64) (borrower : Bool) : LeaseEntry :=
  let d (k : Nat) : Nat := (ds.getD k 0).toNat
  { number := bitsOf (d 0) 0 16, borrower := borrower, peer := bitsOf (d 0) 32 13, part := bitsOf (d 2) 32 8
    base := ds.getD 1 0, gran := bitsOf (d 2) 0 16, notice := d 3, backed := bitOf (d 0) 16, rate := bitsOf (d 5) 0 32
    resv := bitsOf (d 4) 16 36 * 2 ^ 16, rtier := bitsOf (d 4) 60 3, mrec := d 6
    state := if borrower then .active else .exported }

/-- The checks of R368 that both words make: LEASE, PEER, GRAN, the reserved bits, NOTICE by its class. -/
def leaseCommonOk (device : Nat) (ds : List W64) (e : LeaseEntry) : Bool :=
  let d (k : Nat) : Nat := (ds.getD k 0).toNat
  decide (e.number ≠ 0) && decide (e.peer ≠ device) && decide (bitsOf (d 0) 17 15 = 0) && decide (bitsOf (d 0) 45 19 = 0)
    && decide (1 ≤ e.gran ∧ e.gran ≤ 3072) && decide (bitsOf (d 2) 16 16 = 0) && decide (bitsOf (d 2) 40 24 = 0)
    && (if e.backed then decide (50000 ≤ e.notice ∧ e.notice ≤ 100000000) else decide (e.notice = 0)) && decide (d 7 = 0)

/-- BASE of `lexport` (R368): TIER 000 or 010, a frame, nothing else. -/
def exportBaseOk (x : Nat) : Bool :=
  (bitsOf x 58 3 = 0 || bitsOf x 58 3 = 2) && decide (x = bitsOf x 58 3 * 2 ^ 58 + bitsOf x 29 23 * granule)

/-- The least NOTICE of a backed lease (R368, R370). -/
def leastNotice (gran rate : Nat) : Nat := ceilDiv (gran * granule * 1000) rate

/-- RESV, RATE and MREC of a backed `lmap` (R368). -/
def backedOk (ds : List W64) (e : LeaseEntry) : Bool :=
  let d (k : Nat) : Nat := (ds.getD k 0).toNat
  (e.rtier = 2 || e.rtier = 4) && decide (d 4 = e.rtier * 2 ^ 60 + e.resv) && decide (1 ≤ d 5 ∧ d 5 ≤ maxRate)
    && decide (d 6 % 64 = 0) && decide (leastNotice e.gran e.rate ≤ e.notice)

/-- A lease descriptor passes R368. -/
def leaseOk (device : Nat) (ds : List W64) (e : LeaseEntry) : Bool :=
  let zeros := decide (ds.getD 4 0 = 0) && decide (ds.getD 5 0 = 0) && decide (ds.getD 6 0 = 0)
  leaseCommonOk device ds e &&
    (if e.borrower then
      canonical e.base && decide (e.base.toNat % granule = 0) && (if e.backed then backedOk ds e else zeros)
    else exportBaseOk e.base.toNat && zeros)

/-- A GRANT waits for its answer still: once granted its entry is in the table, and otherwise none is kept (R369). -/
def PendingLmap.open_ (p : PendingLmap) : Bool := p.answer.isNone && !p.expired

/-- A lease number is in use at this device (R369), by an entry of either role or a GRANT that waits. -/
def State.leaseInUse (s : State) (n : Nat) : Bool :=
  s.leases.any (fun e => e.number = n) || s.lmaps.any (fun p => p.open_ && p.entry.number = n)

/-- The lease table is full (R367, R369). -/
def State.leasesFull (s : State) : Bool := decide (s.leases.length + (s.lmaps.filter PendingLmap.open_).length ≥ 4096)

/-- TIER and frame of an exported region (R368). -/
def LeaseEntry.tier (e : LeaseEntry) : Nat := bitsOf e.base.toNat 58 3
def LeaseEntry.frame (e : LeaseEntry) : Nat := bitsOf e.base.toNat 29 23 * granule

/-- Two exported regions overlap. -/
def LeaseEntry.overlaps (a b : LeaseEntry) : Bool :=
  decide (a.tier = b.tier) && decide (a.frame < b.frame + b.gran * granule) && decide (b.frame < a.frame + a.gran * granule)

/-- The frame of a lease word (R369): FS, supervisor level, SD and SA. -/
def leaseWord (f : FS) (body : State → Nat → Grp → W64 → Issue) (s : State) : Result :=
  .next (issueControl
    { check := f.check true true false false, level := .supervisor, reads := [f.sa], writes := [f.sd], drained := true }
    (fun s tag g => body s tag g (g.reg f.sa.toNat)) s)

/-- `lexport` (R369): the first status that applies. -/
def execLexport (f : FS) (s : State) : Result :=
  leaseWord f (fun s tag g a =>
    if a.toNat % 64 ≠ 0 then doneWith s tag g f.sd 3
    else withDescriptor s tag g a 8 (fun s ds =>
      let e := leaseOfDwords ds false
      if !leaseOk s.fabric.device ds e then doneWith s tag g f.sd 3
      else if s.leaseInUse e.number then doneWith s tag g f.sd 1
      else if s.leasesFull then doneWith s tag g f.sd 2
      else if s.leases.any (fun o => !o.borrower && o.overlaps e) then doneWith s tag g f.sd 4
      else doneWith { s with leases := s.leases ++ [e] } tag g f.sd 0)) s

/-- The RATE that backed leases hold and the waiting ones ask for. -/
def State.rateSum (s : State) : Nat :=
  (s.leases.map (fun e => e.rate)).sum + ((s.lmaps.filter (fun p => p.open_ && !p.overRate)).map (fun p => p.entry.rate)).sum

/-- The answer to the GRANT of a group has come, or its time has passed: the status of its `lmap` (R369). -/
def PendingLmap.status (p : PendingLmap) : Option Nat :=
  match p.answer with
  | some true => some (if p.overRate then 5 else 0)
  | some false => some 4
  | none => if p.expired then some (if p.overRate then 5 else 6) else none

/-- `lmap` (R369): it sends a GRANT and stalls until the answer. One whose RATE is too much asks as well, because the lender's refusal
is reported first; a GRANTED for it is answered with REFUSED (log entry 17). -/
def execLmap (f : FS) (s : State) : Result :=
  leaseWord f (fun s tag g a =>
    match s.lmaps.find? (fun p => p.gtag = tag) with
    | some p =>
      (match p.status with
       | some k => doneWith { s with lmaps := s.lmaps.filter (fun q => q.gtag ≠ tag) } tag g f.sd k
       | none => .stall s)
    | none =>
      if a.toNat % 64 ≠ 0 then doneWith s tag g f.sd 3
      else withDescriptor s tag g a 8 (fun s ds =>
        let e := leaseOfDwords ds true
        if !leaseOk s.fabric.device ds e then doneWith s tag g f.sd 3
        else if s.leaseInUse e.number then doneWith s tag g f.sd 1
        else if s.leasesFull then doneWith s tag g f.sd 2
        else
          let p : PendingLmap := { gtag := tag, entry := e, started := s.cycle, overRate := decide (s.rateSum + e.rate > maxRate) }
          .stall ({ s with lmaps := s.lmaps ++ [p] }.sendLease 0x20 e))) s

/-- This device's entry as the lender of a lease. -/
def State.lent (s : State) (number : Nat) : Option LeaseEntry :=
  s.leases.find? (fun e => !e.borrower && decide (e.number = number))

/-- The lender's entry is being reclaimed: its deadline is set (R371). -/
def LeaseEntry.reclaim (e : LeaseEntry) (cycle : Nat) : LeaseEntry :=
  { e with state := .reclaiming, deadline := some (cycle + cyclesOf e.notice + cyclesOf 50000) }

/-- `lreclaim` (R369, R371). -/
def execLreclaim (f : FS) (s : State) : Result :=
  leaseWord f (fun s tag g a =>
    if a.toNat ≥ 2 ^ 16 then doneWith s tag g f.sd 3
    else
      match s.lent a.toNat with
      | none => doneWith s tag g f.sd 1
      | some e =>
        match e.state with
        | .exported => doneWith (s.setLease e.number false none) tag g f.sd 0
        | .lent => doneWith ((s.setLease e.number false (some (e.reclaim s.cycle))).sendLease 0x23 e) tag g f.sd 0
        | _ => doneWith s tag g f.sd 2) s

/-- A lease begins to return (R372): DUSK; a cache-class lease drops every translation of its region and every pin that has no grant
(R266), and a backed one is demoted by D_B. -/
def beginReturn (s : State) (e : LeaseEntry) : State :=
  let s := postEvent s (e.report 0x1A)
  if e.backed then
    let e := { e with state := .demoting, deadline := some (s.cycle + cyclesOf e.notice) }
    demoteFrom (s.setLease e.number true (some e)) e e.base.toNat
  else
    ((s.setLease e.number true (some { e with state := .returning })).invalidate e.part e.base.toNat (e.gran * granule)).unpin
      (fun a => a.under e.number)

/-- An access that may lie at the lender was captured under a lease, and is still to be performed (R308, R374). -/
def State.leaseHeld (s : State) (e : LeaseEntry) : Bool :=
  s.holds e.part (fun a => inRange e.base.toNat (e.gran * granule) a.va && a.target.maybeLeased) || leaseBusy s e.number

/-- `lack` (R369, R372): a revoked entry is freed once no access uses it (R374). While the region of a cache-class lease is
being discarded it stalls (log entry 27). -/
def execLack (f : FS) (s : State) : Result :=
  leaseWord f (fun s tag g a =>
    if a.toNat ≥ 2 ^ 16 then doneWith s tag g f.sd 3
    else
      match s.borrowed a.toNat with
      | none => doneWith s tag g f.sd 1
      | some e =>
        match e.state with
        | .demoting => doneWith s tag g f.sd 2
        | .returning => .stall s
        | .revoked => if s.leaseHeld e then .stall s else doneWith (s.setLease e.number true none) tag g f.sd 0
        | _ => doneWith (beginReturn (s.sendLease 0x24 e) e) tag g f.sd 0) s

/-- A REFUSED for a lease that this device holds no entry of (R369, R371). -/
def State.refuse (s : State) (m : LeaseMsg) : State :=
  s.transmit (.lease 0x22 m.src { src := s.fabric.device, lease := m.lease })

/-- A GRANT arrives at the lender (R371); after a failed boot none is answered (R453). -/
def arriveGrant (s : State) (m : LeaseMsg) : State :=
  if s.root.halted then s else
  match s.lent m.lease with
  | none => s.refuse m
  | some e =>
    if e.state = .exported ∧ e.peer = m.src ∧ e.backed = m.backed ∧ e.gran = m.gran ∧ e.notice = m.notice then
      (s.setLease e.number false (some { e with state := .lent })).sendLease 0x21 e
    else s.refuse m

/-- GRANT (R371). -/
def execGrant (msg : LeaseMsg) (s : State) : Result := .next (arriveGrant s msg)

/-- The GRANT that a message of a lender answers. -/
def State.pendingLmap (s : State) (m : LeaseMsg) : Option PendingLmap :=
  s.lmaps.find? (fun p => p.entry.number = m.lease && p.entry.peer = m.src && p.open_)

/-- `s` with the answer to a GRANT. -/
def State.answerLmap (s : State) (p : PendingLmap) (yes : Bool) : State :=
  { s with lmaps := s.lmaps.map (fun q => if q.gtag = p.gtag then { p with answer := some yes } else q) }

/-- A GRANTED arrives (R369): the entry is ACTIVE; one that is too late is answered with REFUSED, also where its number has been borrowed
from another device since. -/
def arriveGranted (s : State) (m : LeaseMsg) : State :=
  match s.pendingLmap m with
  | some p =>
    if p.overRate then (s.answerLmap p true).refuse m else { s.answerLmap p true with leases := s.leases ++ [p.entry] }
  | none => if (s.borrowed m.lease).any (fun e => e.peer = m.src) then s else s.refuse m

/-- GRANTED (R369). -/
def execGranted (msg : LeaseMsg) (s : State) : Result := .next (arriveGranted s msg)

/-- A REFUSED arrives (R369, R371): at the borrower whose `lmap` waits, or at the lender whose GRANTED came too late. -/
def arriveRefused (s : State) (m : LeaseMsg) : State :=
  match s.pendingLmap m with
  | some p => s.answerLmap p false
  | none =>
    match s.lent m.lease with
    | some e => if e.state = .lent ∧ e.peer = m.src then s.setLease e.number false (some { e with state := .exported }) else s
    | none => s

/-- REFUSED (R371). -/
def execRefused (msg : LeaseMsg) (s : State) : Result := .next (arriveRefused s msg)

/-- No answer to a GRANT has come within 100 microseconds (R369). -/
def tryLmapTimeout (s : State) (lease : Nat) : Option State := do
  let p ← s.lmaps.find? (fun p => p.entry.number = lease && p.open_)
  if s.cycle < p.started + cyclesOf 100000 then none
  else some { s with lmaps := s.lmaps.map (fun q => if q.gtag = p.gtag then { p with expired := true } else q) }

/-- LMAP_TIMEOUT (R369). -/
def execLmapTimeout (lease : Nat) (s : State) : Result := eventResult s (tryLmapTimeout s lease)

/-- A NOTICE arrives at the borrower (R372). -/
def arriveNotice (s : State) (m : LeaseMsg) : State :=
  match s.borrowed m.lease with
  | some e => if e.state = .active ∧ e.peer = m.src then beginReturn s e else s
  | none => s

/-- NOTICE (R372). -/
def execNotice (msg : LeaseMsg) (s : State) : Result := .next (arriveNotice s msg)

/-- A RETURN arrives at the lender (R371). -/
def arriveReturn (s : State) (m : LeaseMsg) : State :=
  match s.lent m.lease with
  | some e => if e.state = .lent ∧ e.peer = m.src then s.setLease e.number false (some (e.reclaim s.cycle)) else s
  | none => s

/-- RETURN (R371). -/
def execLeaseReturn (msg : LeaseMsg) (s : State) : Result := .next (arriveReturn s msg)

/-- A DONE arrives at the lender (R371). -/
def arriveDone (s : State) (m : LeaseMsg) : State :=
  match s.lent m.lease with
  | some e =>
    if e.state = .reclaiming ∧ e.peer = m.src then postEvent (s.setLease e.number false none) (e.report 0x1B) else s
  | none => s

/-- DONE (R371). -/
def execLeaseDone (msg : LeaseMsg) (s : State) : Result := .next (arriveDone s msg)

/-- The borrower's entry is revoked (R372): demotion stops, the page in transit stalls, and LEASEREVOKED is posted. -/
def revokeLease (s : State) (e : LeaseEntry) : State :=
  let s := s.setLease e.number true (some { e with state := .revoked, deadline := none })
  let s := match s.migrations.find? (fun m => m.lease = some e.number) with
    | some m => if m.stalled s then s else stallMigration s m
    | none => s
  postEvent s (e.report 0x1C)

/-- A REVOKE arrives at the borrower (R372). -/
def arriveRevoke (s : State) (m : LeaseMsg) : State :=
  match s.borrowed m.lease with
  | some e => if (e.state = .active ∨ e.state = .demoting) ∧ e.peer = m.src then revokeLease s e else s
  | none => s

/-- REVOKE (R372). -/
def execRevoke (msg : LeaseMsg) (s : State) : Result := .next (arriveRevoke s msg)

/-- D_L is reached (R371). -/
def tryLenderDeadline (s : State) (lease : Nat) : Option State := do
  let e ← s.lent lease
  if e.state = .reclaiming ∧ e.due s.cycle then
    some (postEvent ((s.setLease lease false none).sendLease 0x26 e) (e.report 0x1C))
  else none

/-- LENDER_DEADLINE (R371). -/
def execLenderDeadline (lease : Nat) (s : State) : Result := eventResult s (tryLenderDeadline s lease)

/-- D_B is reached (R372): demotion stops, so that a unit which it has locked is unlocked; from then on no access passes its check, and
those that have passed it are performed first (R374). -/
def tryBorrowerDeadline (s : State) (lease : Nat) : Option State := do
  let e ← s.borrowed lease
  if !(e.state = .demoting ∧ e.due s.cycle) then none
  else if !s.leaseHeld e then some (revokeLease s e)
  else (s.migrations.find? (fun m => m.lease = some lease && m.locked)).map (fun m => s.setMigration { m with locked := false })

/-- BORROWER_DEADLINE (R372). -/
def execBorrowerDeadline (lease : Nat) (s : State) : Result := eventResult s (tryBorrowerDeadline s lease)

/-- Dies that are present and lie below one (R25). -/
def State.diesBelow (s : State) (d : Nat) : Nat := ((upTo d).filter (fun k => bitOf s.dieMask k)).length

/-- The bytes of the image (R376): near memory of each present die, then far memory. -/
def State.imageBytes (s : State) : Nat := s.diesBelow Config.dies * Config.nearBytes + Config.farBytes

/-- The place of a byte in the image, if it belongs to it. -/
def State.imagePlace (s : State) (pa : Nat) : Option Nat :=
  if !namesMemory s.dieMask pa then none
  else if pa / 2 ^ 48 = 1 then
    let off := pa % 2 ^ 48
    some (s.diesBelow (off / Config.nearBytes) * Config.nearBytes + off % Config.nearBytes)
  else if pa / 2 ^ 48 = 0 then some (s.diesBelow Config.dies * Config.nearBytes + pa)
  else none

/-- The targets of a checkpoint descriptor (R375): device, granules and base of each; none where it fails R375. -/
def ckptTargets (image : Nat) (ds : List W64) : Option (List (Nat × Nat × Nat)) :=
  let d (k : Nat) : Nat := (ds.getD k 0).toNat
  let n := bitsOf (d 0) 0 4
  let ts := (upTo n).map (fun i => (bitsOf (d (2 + 2 * i)) 0 13, bitsOf (d (2 + 2 * i)) 32 16, d (3 + 2 * i)))
  let clean (i : Nat) : Bool :=
    if i < n then
      let x := d (2 + 2 * i)
      decide (bitsOf x 13 19 = 0) && decide (bitsOf x 48 16 = 0) && decide (bitsOf x 32 16 ≠ 0)
        && decide (d (3 + 2 * i) % granule = 0)
    else decide (d (2 + 2 * i) = 0) && decide (d (3 + 2 * i) = 0)
  if decide (1 ≤ n ∧ n ≤ 8) && decide (d 0 = n) && decide (d 1 = 0) && (upTo 8).all clean
      && decide (image ≤ (ts.map (fun t => t.2.1)).sum * granule) then some ts
  else none

/-- `ckpt` (R375, R376): a misaligned descriptor fails R375. -/
def execCkpt (f : FC) (s : State) : Result :=
  .next (issueControl
    { check := f.check true true false true, level := .supervisor, reads := [f.sa, f.sb], writes := [f.sd], drained := true }
    (fun s tag g =>
      let a := g.reg f.sa.toNat
      if s.ckpt.isSome then doneWith s tag g f.sd 1
      else if a.toNat % 64 ≠ 0 then doneWith s tag g f.sd 2
      else withDescriptor s tag g a 18 (fun s ds =>
        match ckptTargets s.imageBytes ds with
        | none => doneWith s tag g f.sd 2
        | some ts =>
          let c : Ckpt :=
            { counter := g.reg f.sb.toNat, part := g.part, launch := g.launch, gtag := tag, targets := ts, pc := g.pc, hdr := g.hdr }
          doneWith { s with ckpt := some c } tag g f.sd 0)) s)

/-- An open window takes checkpoint data of a source at a physical address (R375). -/
def ckptAccepts (s : State) (src a : Nat) : Bool :=
  (upTo 8).any (fun k =>
    let (c, w) := FMap.get (0, 0) s.windows k
    let base := bitsOf w.toNat 29 23 * granule
    c.getLsbD 63 && decide (bitsOf c.toNat 0 13 = src) && decide (base ≤ a) && decide (a < base + bitsOf w.toNat 0 16 * granule))

/-- The windows of a source take every one of `n` bytes: they begin and end at granules, and so does each target's share (R375). -/
def ckptTakes (s : State) (src a n : Nat) : Bool :=
  (upTo ((a + n - 1) / granule - a / granule + 1)).all (fun k => ckptAccepts s src (max a ((a / granule + k) * granule)))

/-- Checkpoint data written where a window takes it (R375). -/
def takeCheckpoint (s : State) (d : CkptData) : State :=
  let inside (a : Nat) : Bool := decide (d.addr ≤ a) && decide (a < d.addr + d.len) && ckptAccepts s d.src a && namesMemory s.dieMask a
  let m := s.mem.filter (fun c => !inside c.1)
  { s with mem := d.bytes.foldl (fun m b => if inside (d.addr + b.1) then Memory.write m (d.addr + b.1) b.2 else m) m }

/-- CHECKPOINT_DATA (R375). -/
def execCheckpointData (data : CkptData) (s : State) : Result := .next (takeCheckpoint s data)

/-- The part of the image from byte `lo` to `hi` as data for a target whose share begins at byte `at_` of the image. -/
def imageData (s : State) (t : Nat × Nat × Nat) (at_ lo hi : Nat) : CkptData :=
  { src := s.fabric.device, dst := t.1, addr := t.2.2 + (lo - at_), len := hi - lo
    bytes := s.mem.filterMap (fun c =>
      match s.imagePlace c.1 with
      | some x => if lo ≤ x ∧ x < hi then some (x - lo, c.2) else none
      | none => none) }

/-- The image from byte `lo` to `hi` sent to its targets, in descriptor order (R376): a target of this device that refuses is
noted. -/
def sendImage (s : State) (lo hi : Nat) : Nat → Nat → List (Nat × Nat × Nat) → State
  | _, _, [] => s
  | i, at_, t :: rest =>
    let a := max lo at_
    let b := Nat.min hi (at_ + t.2.1 * granule)
    let s := if a < b then
        let d := imageData s t at_ a b
        let bad := decide (t.1 = s.fabric.device) && !ckptTakes s d.src d.addr d.len
        let s := s.transmit (.checkpoint d)
        if bad then { s with ckpt := s.ckpt.map (fun c => { c with failed := some (c.failed.getD i) }) } else s
      else s
    sendImage s lo hi (i + 1) (at_ + t.2.1 * granule) rest

/-- The next `n` units of 256 bytes of a running checkpoint sent, each as it stands now (R376). -/
def drainUnits (s : State) (n : Nat) : Option State := do
  let c ← s.ckpt
  let hi := Nat.min (256 * (c.next + n)) s.imageBytes
  if n = 0 ∨ hi ≤ 256 * c.next then none
  else some (sendImage { s with ckpt := some { c with next := hi / 256 } } (256 * c.next) hi 0 0 c.targets)

/-- How the drain ends (R376): 0, or one more than the target that failed it. Whether another device refused its data or could not
be reached is the fabric's to say, a free choice (log entry 17). -/
def ckptOutcome (s : State) (c : Ckpt) : Nat × State :=
  match c.failed with
  | some i => (i + 1, s)
  | none =>
    if c.targets.all (fun t => t.1 = s.fabric.device) then (0, s)
    else
      let (k, s) := s.choose (c.targets.length + 1)
      (if (c.targets.getD (k - 1) (0, 0, 0)).1 = s.fabric.device then 0 else k, s)

/-- Checkpoint data of this device's is still on its way out of the ports, or to one of its own windows. -/
def State.draining (s : State) : Bool :=
  let mine (w : Sent) : Bool := match w with | .checkpoint d => decide (d.src = s.fabric.device) | _ => false
  s.fabric.ports.any (fun p => p.2.vc2.any (fun w => mine w.what))
    || s.fabric.links.any (fun w => mine w.what && (match w.what with | .checkpoint d => decide (d.dst = s.fabric.device) | _ => false))

/-- A checkpoint ends once every unit has been sent (R376): its counter is raised, and CKPT posted to the supervisor. -/
def tryCkptComplete (s : State) : Option State := do
  let c ← s.ckpt
  if 256 * c.next < s.imageBytes || s.draining then none
  else
    let (k, s1) := ckptOutcome s c
    let w : Agent := { unit := unitCounter, a := 2 ^ 42, b := 0, part := c.part, launch := c.launch, gtag := c.gtag, pc := c.pc
                       hdr := c.hdr }
    let fallback : Report :=
      { counterFault w (if k = 0 then 0 else 0x1D) with part := 255, gtag := 0xFFFF }
    match raiseCounter s1 w c.counter (decide (k ≠ 0)) fallback with
    | .wait s' => ifMoved s { s' with ckpt := some { c with failed := if k = 0 then none else some (k - 1) } }
    | .done s =>
      some (postEvent { s with ckpt := none }
        { cause := 0x1D, detail := if k = 0 then 0xFFFF else k - 1, part := 255, pc := c.pc, hdr := c.hdr, a0 := c.counter.toNat })

/-- CKPT_COMPLETE (R376). -/
def execCkptComplete (s : State) : Result := eventResult s (tryCkptComplete s)

end Sys2Proof.Machine
end

