-- ==== Sys2Proof/Machine/Ports.lean ====
section
/-!
DEFINITION. The source's side of the fabric: answers and time-outs (R330, R357, R363-R366), the arbitration of a port (R361), links (R27,
R364), what reaches this device from itself, and the token buckets (R321-R323).
-/
namespace Sys2Proof.Machine

/-- The elements that a request accesses (R357). -/
def Request.mask (r : Request) : List Nat :=
  match r.what with
  | .packet p => p.mask
  | _ => []

/-- The group that a request's packet names (R357). -/
def Request.gtag (r : Request) : Nat :=
  match r.what with
  | .packet p => p.gtag
  | _ => 0xFFFF

/-- The REMOTE event of an access that failed at a lender (R330, R360, R423). -/
def reportFailed (s : State) (r : Request) (failed : List Nat) (reason : Nat) : State :=
  match failed with
  | [] => s
  | e :: _ =>
    postEvent s { cause := 0x19, detail := reason, part := r.part, gtag := r.gtag, launch := r.launch % 2 ^ 32, pc := r.pc
                  hdr := r.hdr, a0 := r.dst, a1 := e }

/-- An agent whose failed accesses its own event reports (R348, R413), or none does (R373). -/
def reportsItself (unit : Nat) : Bool :=
  unit = unitCopy || unit = unitCopyOut || unit = unitTrigger || unit = unitColl || unit = unitRecord || unit = unitDemote
    || unit = unitCounter || unit = unitSwap + unitCounter || unit = unitRing

/-- The width of a request's elements. -/
def Request.esize (r : Request) : Nat :=
  match r.what with
  | .packet p => p.esize
  | _ => 8

/-- The value that a scalar load takes from its answer (R162, R330): +0 where it failed. -/
def Load.answer (l : Load) (failed data : List Nat) : Load :=
  { l with value := some (if failed = [] then loadedValue l.bits l.signed (data.headD 0) else 0), waits := [], acc := none }

/-- A scalar load of eight bytes that a lender has answered is noted (R380). -/
def Grp.answeredLoad (g : Grp) (l : Load) (r : Request) (x : Nat) : Grp :=
  match r.what with
  | .packet p => if p.leased ∧ l.bits = 64 then g.noteRead l.id (leaseSpace p.ftag) p.addr.toNat 8 x else g
  | _ => g

/-- The values that an answer brings for the elements that did not fail, each as the word `id` of a group reads it (R380). -/
def wordData (s : State) (tag id : Nat) (r : Request) (failed data : List Nat) : List Nat :=
  match r.what, s.grp tag with
  | .packet p, some g =>
    if p.leased ∧ p.kind = 1 then
      ((p.mask.filter (fun e => !failed.contains e)).zip data).map (fun q =>
        g.valueRead id (leaseSpace p.ftag) (packetAddr p q.1).toNat (p.esize / 8) q.2)
    else data
  | _, _ => data

/-- What the answer to a request does to who asked (R330, R356, R407): the elements that failed, and the values of the others. -/
def answerRequest (s : State) (r : Request) (failed data : List Nat) (reason : Nat) : State :=
  let here (w : List (Nat × Nat)) : Bool := w.contains (r.dst, r.seq)
  match r.who with
  | .vector tag id =>
    let shift (es : List Nat) : List Nat := es.map (fun e => r.first + e)
    answerWord s tag id r.dst r.seq (shift r.mask) (shift failed) (wordData s tag id r failed data) reason
  | .load tag id =>
    let s := s.modGrp tag (fun g =>
      match g.loads.find? (fun l => decide (l.id = id) && here l.waits) with
      | some l =>
        let g := if failed = [] then g.answeredLoad l r (data.headD 0) else g
        { g with loads := g.loads.map (fun h => if h.id = id ∧ here h.waits then h.answer failed data else h) }
      | none => g)
    reportFailed s r failed reason
  | .fetch tag =>
    let x := if failed = [] then data.headD 0 else Config.unstated 13 [r.seq]
    let s := s.modGrp tag (fun g => if g.asked = some (r.dst, r.seq) then
      { g with partly := g.partly ++ [BitVec.ofNat 64 x], asked := none } else g)
    reportFailed s r failed reason
  | .store tag id =>
    let s := s.modGrp tag (fun g =>
      match g.stores with
      | e :: _ => if e.id = id ∧ here e.waits then g.popStore e else g
      | [] => g)
    reportFailed s r failed reason
  | .engine unit a _ _ =>
    let s := if reportsItself unit then s else reportFailed s r failed reason
    let wanted := (unit ≠ unitDemote || s.migrations.any (fun m => m.lease = some a && !m.stalled s))
    if wanted then
      let x := if failed = [] then some (joinData r.esize data) else none
      let f := s.fabric
      { s with fabric := { f with
        answers := f.answers ++ [(r.who, x)], lapsed := if failed ≠ [] ∧ reason = 6 then f.lapsed ++ [r.who] else f.lapsed } }
    else s
  | .transfer die collid inst nmem index => transferAcked s die collid inst nmem index (decide (failed ≠ []))
  | .message _ _ _ _ _ => s

/-- `s` without a request that has been answered or given up; those it held back are sent (R362, R363). -/
def State.settle (s : State) (r : Request) : State :=
  { s with fabric := { s.fabric with requests := s.fabric.requests.filter (fun q => !(q.dst = r.dst && q.seq = r.seq)) } }

/-- The round trip of a remote request sampled (R448): of a group's on the die of its core, of the device's own on a die of the device's
choosing. It is taken from the latest send (log entry 18). -/
def State.sampleTrip (s : State) (r : Request) : State :=
  match r.what with
  | .packet _ =>
    if r.gtag = 0xFFFF then s.count 5 (some r.part) (some (s.cycle - r.at_)) else sampleCore s (r.gtag / 16) 5 r.part (some (s.cycle - r.at_))
  | _ => s

/-- A response or acknowledgement arrives (R366): the first to each outstanding number is accepted. -/
def arriveAnswer (s : State) (p : Packet) : State :=
  if p.dst ≠ s.fabric.device then s
  else if p.reserved || !(p.kind = 0x10 || p.kind = 0x11) then s.drop
  else
    match s.fabric.requests.find? (fun r => r.dst = p.src && r.seq = p.seq && r.sent) with
    | some r => (State.release (answerRequest (s.settle r) r p.mask p.data p.reason)).sampleTrip r
    | none => s

/-- REMOTE_RESPONSE (R366). -/
def execRemoteResponse (packet : Packet) (s : State) : Result := .next (arriveAnswer s packet)

/-- The end-to-end timer of 16 microseconds (R364). -/
abbrev requestTimer : Nat := 57600

/-- A request as it is sent again (R364, R411). -/
def resentOf : Sent → Sent
  | .transfer t => .transfer { t with resent := true }
  | x => x

/-- A request has exhausted its resends (R365): every accessed element fails with reason 5. -/
def giveUp (s : State) (r : Request) : State :=
  let s := s.settle r
  State.release (match r.who with
    | .transfer die collid inst nmem _ => transferLost s die collid inst nmem
    | .message die collid inst nmem msg => messageLost s die collid inst nmem msg
    | _ => answerRequest s r r.mask [] 5)

/-- The timer of a request expires (R364, R365): it is resent, at most seven times. -/
def tryRequestTimeout (s : State) (dest seq : Nat) : Option State := do
  let r ← s.fabric.requests.find? (fun r => r.dst = dest && r.seq = seq && r.sent)
  if s.cycle < r.at_ + requestTimer then none
  else if r.resends ≥ 7 then some (giveUp s r)
  else
    let r' := { r with at_ := s.cycle, resends := r.resends + 1, what := resentOf r.what }
    let qs := s.fabric.requests.map (fun q => if q.dst = dest && q.seq = seq then r' else q)
    some ({ s with fabric := { s.fabric with requests := qs } }.transmit r'.what)

/-- REQUEST_TIMEOUT (R364). -/
def execRequestTimeout (dest seq : Nat) (s : State) : Result := eventResult s (tryRequestTimeout s dest seq)

/-- The tier that wins a slot (R361), and whether it spends a token of the reserve. -/
def Port.winner (p : Port) : Option (Nat × Bool) :=
  let reserved := match p.vc2 with | w :: _ => w.reserve | [] => false
  if reserved && decide (p.bucket > 0) then some (2, true)
  else if p.starve1 = 255 then some (1, false)
  else if p.starve2 = 255 then some (2, false)
  else if p.vc0 ≠ [] then some (0, false)
  else if p.vc1 ≠ [] then some (1, false)
  else if p.vc2 ≠ [] then some (2, false)
  else none

/-- The packets of a tier. -/
def Port.tier (p : Port) : Nat → List Waiting
  | 0 => p.vc0
  | 1 => p.vc1
  | _ => p.vc2

/-- A port with a tier's packets replaced. -/
def Port.setTier (p : Port) (t : Nat) (ws : List Waiting) : Port :=
  match t with
  | 0 => { p with vc0 := ws }
  | 1 => { p with vc1 := ws }
  | _ => { p with vc2 := ws }

/-- A starvation counter after a slot (R361): its own tier is `t`. -/
def starveNext (n t : Nat) (waiting : Bool) (won : Option Nat) : Nat :=
  match won with
  | some w => if !waiting ∨ w = t then 0 else if w < t then Nat.min 255 (n + 1) else n
  | none => if waiting then n else 0

/-- One flit slot of a port (R361): the port after it, and the packet whose last flit has left. -/
def Port.slot (p : Port) : Port × Option Carried :=
  let won := p.winner
  let (q, gone) := match won with
    | none => (p, none)
    | some (t, spent) =>
      let q : Port := if spent then { p with bucket := p.bucket - 1 } else p
      (match p.tier t with
       | w :: rest =>
         if w.left ≤ 1 then (q.setTier t rest, some (Carried.mk w.spine w.what))
         else (q.setTier t ({ w with left := w.left - 1 } :: rest), none)
       | [] => (q, none))
  ({ q with
      starve1 := starveNext p.starve1 1 (decide (q.vc1 ≠ [])) (won.map Prod.fst)
      starve2 := starveNext p.starve2 2 (decide (q.vc2 ≠ [])) (won.map Prod.fst), slots := p.slots + 1 }, gone)

/-- A port grants a flit slot (R361); none while its reserve bucket is due for a refill. -/
def tryFlitSlot (s : State) (k : Nat) : Option State :=
  let p := FMap.get {} s.fabric.ports k
  if k ≥ portCount || p.slots ≥ 256 then none
  else
    let (q, gone) := p.slot
    let f := s.fabric
    some { s with fabric := { f with ports := FMap.set {} f.ports k q, links := f.links ++ gone.toList } }

/-- FLIT_SLOT_GRANT (R361). -/
def execFlitSlotGrant (port : Nat) (s : State) : Result := eventResult s (tryFlitSlot s port)

/-- After 256 slots a port's reserve bucket gains 75 tokens, up to 255 (R361). -/
def tryReserveRefill (s : State) (k : Nat) : Option State :=
  let p := FMap.get {} s.fabric.ports k
  if k ≥ portCount || p.slots < 256 then none
  else
    let q := { p with slots := p.slots - 256, bucket := Nat.min 255 (p.bucket + 75) }
    some { s with fabric := { s.fabric with ports := FMap.set {} s.fabric.ports k q } }

/-- RESERVE_TOKEN_REFILL (R361). -/
def execReserveTokenRefill (port : Nat) (s : State) : Result := eventResult s (tryReserveRefill s port)

/-- LINK_REPLAY (R364): link replay delivers each flit once and in order, so that it changes nothing but the time. -/
def execLinkReplay (_port : Nat) (s : State) : Result := .next s

/-- The port number of the host's link in a link event (R423). -/
abbrev hostPort : Nat := 0x100

/-- The host link trains to PCIe 5.0, 6.0 or 7.0, 16 lanes wide or fewer (R22). -/
def hostTrains (rate : Nat) : Bool := [5, 6, 7].contains (rate % 256) && decide (1 ≤ rate / 256 ∧ rate / 256 ≤ 16)

/-- Live field and event of a link that retrains (R25, R27, R423): of an Asast port, or of the host link, whose generation and width
are the low two bytes of `rate`. -/
def tryLinkRetrain (s : State) (port rate : Nat) : Option State :=
  let tell (s : State) (kind dword : Nat) : State :=
    let x := ((((capRecords s).find? (fun r => r.1 = kind)).map Prod.snd).getD []).getD (dword - 1) 0
    postEvent s { cause := 0x23, detail := port, part := 255, a0 := x }
  if port < portCount ∧ rate ≤ 2 then
    let p := FMap.get {} s.fabric.ports port
    let s := { s with fabric := { s.fabric with ports := FMap.set {} s.fabric.ports port { p with rate := rate } } }
    some (tell s 5 (1 + port / 8))
  else if port = hostPort ∧ hostTrains rate then some (tell { s with hostLink := (rate % 256, rate / 256) } 4 1)
  else none

/-- LINK_RETRAIN (R27). -/
def execLinkRetrain (port rate : Nat) (s : State) : Result := eventResult s (tryLinkRetrain s port rate)

/-- What is addressed to this device itself arrives (R355, R362, R375, R407, R408); none where it goes to another. -/
def arriveHere (s : State) (w : Sent) : Option State :=
  let here (dst : Nat) (t : State) : Option State := if dst = s.fabric.device then some t else none
  match w with
  | .packet p => here p.dst (if p.kind < 0x10 then arriveRequest s p else arriveAnswer s p)
  | .checkpoint d => here d.dst (takeCheckpoint s d)
  | .transfer t => here t.dst (arriveTransfer s t)
  | .message k m => here m.dst (arriveMessage s k m)
  | .lease _ _ _ => none

/-- What has left the ports for this device itself arrives. -/
def deliverLink (s : State) (w : Carried) : Option State :=
  arriveHere { s with fabric := { s.fabric with links := s.fabric.links.erase w } } w.what

/-- What travels from die to die arrives (R407, R408). -/
def deliverLocal (s : State) (w : Sent) : Option State :=
  arriveHere { s with fabric := { s.fabric with local_ := s.fabric.local_.erase w } } w

/-- What arrived before a request has still to be performed. -/
def State.servedBefore (s : State) (v : Serving) : Bool :=
  (s.fabric.serving.takeWhile (fun w => w ≠ v)).any (fun w => decide (w.todo ≠ []))

/-- A request being performed goes on (R359, R406): by its next element, or by the one named. Requests are performed, and transfers
combined, in the order they arrive (R362, R409); after a failed boot none is (R453). -/
def serveNext (s : State) (v : Serving) (elem : Option Nat) : Option State :=
  if s.servedBefore v || s.root.halted then none else
  match v.what with
  | .packet p => servePacket s v p elem
  | .transfer t => serveTransfer s v t elem
  | _ => none

/-- The cores of a die whose ports have requests waiting, by partition (R323). -/
def waitingPorts (s : State) (die part : Nat) : List Nat :=
  (upFrom (die * Config.coresPerDie) Config.coresPerDie).filter (fun c => (s.coreAt c).asking && (s.coreAt c).part = part)

/-- The partitions of a die with a request waiting (R323). -/
def activeParts (s : State) (die : Nat) : List Nat := (upTo 256).filter (fun p => waitingPorts s die p ≠ [])

/-- The grant of each active partition of a die (R321, R323). -/
def grants (s : State) (die : Nat) : List (Nat × Nat) :=
  let budget := bitsOf s.bandwidth.toNat 0 17
  let share (p : Nat) : Nat := (s.partAt p).share
  let total := ((upTo 256).map share).sum
  let base (p : Nat) : Nat := budget * share p / max 256 total
  let act := activeParts s die
  let spare := budget - (act.map base).sum
  let sum := (act.map share).sum
  act.map (fun p => (p, base p + (if sum = 0 then 0 else spare * share p / sum)))

/-- A port's bucket takes a grant, and the requests that wait there try again (R322, R323). -/
def CoreUnit.refill (u : CoreUnit) (grant : Nat) : CoreUnit :=
  { u with bucket := Nat.min (Nat.min (u.bucket + grant) (2 * grant)) (2 ^ 17 - 1), asking := false }

/-- A partition's grant split over its ports with a request waiting, the remainder to lower core numbers (R323). -/
def splitGrant (s : State) (die part grant : Nat) : State :=
  let ports := waitingPorts s die part
  let n := ports.length
  ((upTo n).zip ports).foldl (fun s p =>
    s.setCore p.2 ((s.coreAt p.2).refill (grant / n + (if p.1 < grant % n then 1 else 0)))) s

/-- A die refills its buckets (R323), once 1,024 cycles have passed since it last did. -/
def tryBucketRefill (s : State) (die : Nat) : Option State :=
  let d := s.dieAt die
  if die ≥ Config.dies || s.cycle < d.refilled + 1024 then none
  else some ((grants s die).foldl (fun s p => splitGrant s die p.1 p.2) (s.setDie die { d with refilled := s.cycle }))

/-- BUCKET_REFILL (R323). -/
def execBucketRefill (die : Nat) (s : State) : Result := eventResult s (tryBucketRefill s die)

end Sys2Proof.Machine
end

