-- ==== Sys2Proof/Machine/Root.lean ====
section
/-!
DEFINITION. The Perell root: the audit log (R451, R452), measured boot (R453) and attestation (R454, R455). What SPDM lays down
of its messages is PRESUMED from DMTF SPDM 1.3 (log entry 14).
-/
namespace Sys2Proof.Machine

/-- A 64-byte value as a register holds it: byte i at bits 8i (R452). -/
def digestOf (bs : List Byte) : BitVec 512 := BitVec.ofNat 512 (ofBytes bs)

/-- The bytes of a 64-byte value. -/
def digestBytes (h : BitVec 512) : List Byte := toBytes 64 h.toNat

/-- Entries that the log retains (R451). -/
abbrev logDepth : Nat := 16384

/-- `n` bytes of a list, zeros beyond its end. -/
def takeBytes (n : Nat) (bs : List Byte) : List Byte := (bs ++ List.replicate n 0).take n

/-- An entry appended (R451): the ring, AUDSEQ and the chain head change together. -/
def Root.append (r : Root) (entry : List Byte) : Root :=
  let log := r.log ++ [entry]
  { r with
    log := if log.length > logDepth then log.drop 1 else log, audseq := r.audseq + 1
    head := digestOf (sha512 (digestBytes r.head ++ entry)) }

/-- An entry of the log (R451): SEQ and CYCLE are the engine's (log entry 21). -/
def auditEntry (seq cycle kind : Nat) (body : List Byte) : List Byte :=
  toBytes 8 seq ++ toBytes 8 cycle ++ toBytes 2 kind ++ takeBytes 46 body

/-- The append under way is performed (R451, R452): what the root's firmware has laid at AUDARG, its KIND and body, is there, and
the 64 bytes at AUDARG become the entry. -/
def tryAuditAppend (s : State) (kind : Nat) (data : List Byte) : Option State :=
  let r := s.root
  if r.busy && decide (r.doing = 1) then
    let entry := auditEntry r.audseq s.cycleReg kind data
    let r := { r with sram := Memory.writeBytes r.sram r.arg.toNat entry, busy := false }
    some { s with root := r.append entry }
  else none

/-- AUDIT_APPEND (R451). -/
def execAuditAppend (kind : Nat) (data : List (BitVec 8)) (s : State) : Result := eventResult s (tryAuditAppend s kind data)

/-- The fields that an export signs (R452). -/
def Root.exported (r : Root) : List Byte :=
  toBytes 8 r.audseq ++ toBytes 8 r.oldest ++ digestBytes r.head ++ toBytes 8 r.nonce.toNat

/-- The export under way is performed (R452): the fields, and the 132 bytes of their signature. -/
def tryAuditExport (s : State) : Option State :=
  let r := s.root
  if r.busy && decide (r.doing = 2) then
    let bytes := r.exported ++ takeBytes 132 (Config.signature 0 r.exported)
    some { s with root := { r with sram := Memory.writeBytes r.sram r.arg.toNat bytes, busy := false } }
  else none

/-- AUDIT_EXPORT (R452). -/
def execAuditExport (s : State) : Result := eventResult s (tryAuditExport s)

/-- Stages of the boot (R453): two of firmware, then the microcode of each die that the package has (R25). -/
def State.bootStages (s : State) : Nat := 2 + ((upTo Config.dies).filter (fun d => bitOf s.dieMask d)).length

/-- The next boot stage is measured and verified (R453); its audit entry waits for an export under way (R452). How 64 bytes of digest
lie in a body of 46 is not stated (log entry 16). -/
def tryMeasuredBoot (s : State) (image : List Byte) : Option State :=
  let r := s.root
  if r.failedStage ≠ 0 || r.stages ≥ s.bootStages || (r.busy && decide (r.doing = 2)) then none
  else
    let digest := sha512 image
    if !Config.imageValid r.stages image then some { s with root := { r with failedStage := r.stages + 1 } }
    else
      let body := toBytes 46 (Config.unstated 14 (digest.map (fun b => b.toNat)))
      let r := { r with
        stages := r.stages + 1, digests := r.digests ++ [digestOf digest]
        bootm := digestOf (sha512 (digestBytes r.bootm ++ digest)) }
      some { s with root := r.append (auditEntry r.audseq s.cycleReg 1 body) }

/-- MEASURED_BOOT (R453). -/
def execMeasuredBoot (image : List (BitVec 8)) (s : State) : Result := eventResult s (tryMeasuredBoot s image)

/-- An answer put into the mailbox (R455). -/
def State.reply (s : State) (bytes : List Byte) : State :=
  { s with root := { s.root with answers := s.root.answers ++ [bytes] } }

/-- `n` bytes of the device's choosing. -/
def State.freeBytes (s : State) : Nat → List Byte × State
  | 0 => ([], s)
  | n + 1 =>
    let (k, s) := s.choose 256
    let (bs, s) := s.freeBytes n
    (BitVec.ofNat 8 k :: bs, s)

/-- Byte `k` of a request. -/
def byteAt (bs : List Byte) (k : Nat) : Nat := (bs.getD k 0).toNat

/-- The four bytes that head a message of SPDM 1.3. -/
def spdmHead (code p1 p2 : Nat) : List Byte := [0x13, BitVec.ofNat 8 code, BitVec.ofNat 8 p1, BitVec.ofNat 8 p2]

/-- A request of a code is answered; one of another code is answered by ERROR, InvalidRequest. -/
def spdm (code : Nat) (request : List Byte) (s : State) (k : State → State) : Result :=
  .next (if byteAt request 1 = code then k s else s.reply (spdmHead 0x7F 1 0))

/-- GET_VERSION (R455): version 1.3. -/
def execGetVersion (request : List (BitVec 8)) (s : State) : Result :=
  spdm 0x84 request s (fun s => s.reply [0x10, 0x04, 0, 0, 0, 1, 0x00, 0x13])

/-- GET_CAPABILITIES (R455): certificates, challenges and signed measurements; no session. Its times and sizes are not stated. -/
def execGetCapabilities (request : List (BitVec 8)) (s : State) : Result :=
  spdm 0xE1 request s (fun s =>
    s.reply (spdmHead 0x61 0 0 ++ [0] ++ toBytes 1 (Config.unstated 15 [0]) ++ [0, 0] ++ toBytes 4 0x16
      ++ toBytes 8 (Config.unstated 15 [1])))

/-- NEGOTIATE_ALGORITHMS (R455): ECDSA P-521 and SHA-512. -/
def execNegotiateAlgorithms (request : List (BitVec 8)) (s : State) : Result :=
  spdm 0xE3 request s (fun s =>
    s.reply (spdmHead 0x63 0 0 ++ toBytes 2 36 ++ [1, 0] ++ toBytes 4 8 ++ toBytes 4 0x100 ++ toBytes 4 4
      ++ List.replicate 16 0))

/-- The part number that a device's leaf certificate names (R454): "OVK-8". -/
def partName : List Byte := [0x4F, 0x56, 0x4B, 0x2D, 0x38]

/-- The certificate chain of slot 0 (R454): the certificates above the leaf, and the leaf, which names the part number and the
stepping. All else of it is not stated (log entry 14). -/
def certificateChain : List Byte :=
  Config.certificateText 0 ++ Config.certificateText 1 ++ partName ++ Config.certificateText 2 ++ toBytes 1 Config.stepping
    ++ Config.certificateText 3

/-- The digest of the certificate chain of slot 0. -/
def chainDigest : List Byte := sha512 certificateChain

/-- GET_DIGESTS (R454, R455): of the one chain, in slot 0. -/
def execGetDigests (request : List (BitVec 8)) (s : State) : Result :=
  spdm 0x81 request s (fun s => s.reply (spdmHead 0x01 1 1 ++ chainDigest))

/-- GET_CERTIFICATE (R454, R455): a portion of the chain. -/
def execGetCertificate (request : List (BitVec 8)) (s : State) : Result :=
  spdm 0x82 request s (fun s =>
    let chain := certificateChain
    let off := byteAt request 4 + 256 * byteAt request 5
    let len := byteAt request 6 + 256 * byteAt request 7
    let part := (chain.drop off).take len
    if byteAt request 2 % 16 ≠ 0 ∨ off ≥ chain.length then s.reply (spdmHead 0x7F 1 0)
    else
      s.reply (spdmHead 0x02 0 0 ++ toBytes 2 part.length ++ toBytes 2 (chain.length - off - part.length) ++ part))

/-- The bytes of the measurement blocks (R455). -/
def Root.block (r : Root) (index : Nat) : List Byte :=
  match index with
  | 1 => digestBytes r.bootm
  | 2 => digestBytes r.head ++ toBytes 8 r.audseq
  | 3 => r.digests.flatMap digestBytes
  | _ => toBytes 1 r.failedStage

/-- A measurement block as a MEASUREMENTS message carries it; the type code of its value is not stated. -/
def Root.measurement (r : Root) (index : Nat) : List Byte :=
  let v := r.block index
  toBytes 1 index ++ [1] ++ toBytes 2 (v.length + 3) ++ toBytes 1 (Config.unstated 15 [2, index]) ++ toBytes 2 v.length ++ v

/-- A message with the identity key's signature over the request and it (R454, R455). -/
def signed (request answer : List Byte) : List Byte := answer ++ takeBytes 132 (Config.signature 0 (request ++ answer))

/-- CHALLENGE (R454, R455). -/
def execChallenge (request : List (BitVec 8)) (s : State) : Result :=
  spdm 0x83 request s (fun s =>
    let (nonce, s) := s.freeBytes 32
    let summary := if byteAt request 3 = 0 then [] else sha512 ([1, 2, 3, 4].flatMap s.root.measurement)
    s.reply (signed request
      (spdmHead 0x03 0 1 ++ chainDigest ++ nonce ++ summary ++ toBytes 2 0 ++ takeBytes 8 (request.drop 36))))

/-- The blocks that a GET_MEASUREMENTS asks for: all, one, or only their number. -/
def askedBlocks (op : Nat) : List Nat := if op = 0xFF then [1, 2, 3, 4] else [1, 2, 3, 4].filter (fun k => k = op)

/-- GET_MEASUREMENTS (R455): the blocks asked for, signed where that is asked. -/
def execGetMeasurements (request : List (BitVec 8)) (s : State) : Result :=
  spdm 0xE0 request s (fun s =>
    let op := byteAt request 3
    let blocks := askedBlocks op
    let sign := decide (byteAt request 2 % 2 = 1)
    if op ≠ 0 ∧ blocks = [] then s.reply (spdmHead 0x7F 1 0)
    else
      let record := blocks.flatMap s.root.measurement
      let (nonce, s) := s.freeBytes 32
      let context := takeBytes 8 (request.drop (if sign then 37 else 4))
      let answer := spdmHead 0x60 (if op = 0 then 4 else 0) 0 ++ toBytes 1 blocks.length ++ toBytes 3 record.length ++ record
        ++ nonce ++ toBytes 2 0 ++ context
      s.reply (if sign then signed request answer else answer))

end Sys2Proof.Machine
end

