-- ==== Sys2Proof/Machine/ScalarFloat.lean ====
section
/-!
DEFINITION. Scalar floating point and `nop` (R157-R160, 07_control_thread.md).
-/
namespace Sys2Proof.Machine

/-- A scalar floating-point word (R157-R159): its result, zero-extended, and the XFLAGS bits it sets at issue. The value is
computed from the type, the rounding mode and the registers a = s[sa], b = s[sb], d = s[sd]. -/
def floatWord (c : Check) (f : FS) (reads : List (BitVec 6)) (op : Nat → Nat → Nat → Nat → Nat → Nat × Nat) (s : State) :
    Result :=
  .next (issueControl { check := c, reads := reads, writes := [f.sd] } (fun s tag g =>
    let r := op f.ty (roundMode f.rm g.drm) (g.reg f.sa.toNat).toNat (g.reg f.sb.toNat).toNat (g.reg f.sd.toNat).toNat
    .done (s.setGrp tag ((g.scalarFlags r.2).writeReg f.sd.toNat (BitVec.ofNat 64 r.1)))) s)

/-- The value of the low bits of a register in a type: bits above it are ignored (R159). -/
def lowValue (t x : Nat) : FVal := readFloat t (x % 2 ^ typeWidth t)

/-- A compare's result (R159). -/
def compareBit (b : Bool) (fl : Nat) : Nat × Nat := (bit b, fl)

/-- `fadd` (R159). -/
def execFadd (f : FS) (s : State) : Result :=
  floatWord (Instr.fadd f).check f [f.sa, f.sb] (fun t rm a b _ => floatAdd t rm (lowValue t a) (lowValue t b)) s

/-- `fsub` (R159). -/
def execFsub (f : FS) (s : State) : Result :=
  floatWord (Instr.fsub f).check f [f.sa, f.sb] (fun t rm a b _ => floatSub t rm (lowValue t a) (lowValue t b)) s

/-- `fmul` (R159). -/
def execFmul (f : FS) (s : State) : Result :=
  floatWord (Instr.fmul f).check f [f.sa, f.sb] (fun t rm a b _ => floatMul t rm (lowValue t a) (lowValue t b)) s

/-- `fdiv` (R159). -/
def execFdiv (f : FS) (s : State) : Result :=
  floatWord (Instr.fdiv f).check f [f.sa, f.sb] (fun t rm a b _ => floatDiv t rm (lowValue t a) (lowValue t b)) s

/-- `ffma` (R159). -/
def execFfma (f : FS) (s : State) : Result :=
  floatWord (Instr.ffma f).check f [f.sa, f.sb, f.sd] (fun t rm a b d => floatFma t rm (lowValue t a) (lowValue t b) (lowValue t d)) s

/-- `fsqrt` (R159). -/
def execFsqrt (f : FS) (s : State) : Result :=
  floatWord (Instr.fsqrt f).check f [f.sa] (fun t rm a _ _ => floatSqrt t rm (lowValue t a)) s

/-- `fmin` (R159). -/
def execFmin (f : FS) (s : State) : Result :=
  floatWord (Instr.fmin f).check f [f.sa, f.sb] (fun t _ a b _ => floatMinMax t false (a % 2 ^ typeWidth t) (b % 2 ^ typeWidth t)) s

/-- `fmax` (R159). -/
def execFmax (f : FS) (s : State) : Result :=
  floatWord (Instr.fmax f).check f [f.sa, f.sb] (fun t _ a b _ => floatMinMax t true (a % 2 ^ typeWidth t) (b % 2 ^ typeWidth t)) s

/-- `feq` (R159). -/
def execFeq (f : FS) (s : State) : Result :=
  floatWord (Instr.feq f).check f [f.sa, f.sb] (fun t _ a b _ =>
    compareBit (valueEq (lowValue t a) (lowValue t b)) (nvSig (lowValue t a) (lowValue t b))) s

/-- `flt` (R159). -/
def execFlt (f : FS) (s : State) : Result :=
  floatWord (Instr.flt f).check f [f.sa, f.sb] (fun t _ a b _ =>
    compareBit (valueLt (lowValue t a) (lowValue t b)) (nvAny (lowValue t a) (lowValue t b))) s

/-- `fle` (R159). -/
def execFle (f : FS) (s : State) : Result :=
  floatWord (Instr.fle f).check f [f.sa, f.sb] (fun t _ a b _ =>
    compareBit (valueLt (lowValue t a) (lowValue t b) || valueEq (lowValue t a) (lowValue t b))
      (nvAny (lowValue t a) (lowValue t b))) s

/-- `fcvti` (R159). -/
def execFcvti (f : FS) (s : State) : Result :=
  floatWord (Instr.fcvti f).check f [f.sa] (fun t rm a _ _ =>
    let r := floatToInt rm (-(2 ^ 63)) (2 ^ 63 - 1) (lowValue t a)
    (ofInt 64 r.1, r.2)) s

/-- `ficvt` (R159). -/
def execFicvt (f : FS) (s : State) : Result :=
  floatWord (Instr.ficvt f).check f [f.sa] (fun t rm a _ _ => intToFloat t rm false (toSigned 64 a)) s

/-- `fnarrow` (R159). -/
def execFnarrow (f : FS) (s : State) : Result :=
  floatWord (Instr.fnarrow f).check f [f.sa] (fun t rm a _ _ => narrowFloat t rm f.sat (lowValue 8 a)) s

/-- `fwiden` (R159). -/
def execFwiden (f : FS) (s : State) : Result :=
  floatWord (Instr.fwiden f).check f [f.sa] (fun t _ a _ _ => widenFloat 8 t (a % 2 ^ typeWidth t)) s

/-- `nop` (R160): no effect. -/
def execNop (f : FO) (s : State) : Result :=
  .next (issueControl { check := f.check } (fun s _ _ => .done s) s)

end Sys2Proof.Machine
end

