-- ==== Sys2Proof/Machine/VecMove.lean ====
section
/-!
DEFINITION. Moves between scalars, masks and vectors (R204, R205), index and merge (R210), `vfclass` (R211), compares and
mask logic (R212-R214), cross-element reads and quads (R215-R220), `vcompress`, `vexpand` (R224), `vsetvl` (R179-R182).
-/
namespace Sys2Proof.Machine

/-- A scalar result of a vector-side word: written at its execution, and no longer pending (R147). -/
def Grp.deliver (g : Grp) (id : Nat) (sd : Nat) (x : W64) : Grp :=
  { g.setReg sd x with loads := g.loads.filter (fun l => l.id ≠ id) }

/-- An element as a scalar value: extended by the signedness of an integer type, zero-extended otherwise (R204, R221). -/
def elemScalar (t x : Nat) : W64 :=
  if t < 4 then BitVec.ofInt 64 (toSigned (typeWidth t) x) else BitVec.ofNat 64 (x % 2 ^ typeWidth t)

/-- Active and with its bit set in a mask (R214). -/
def Grp.selected (g : Grp) (mreg m : Nat) : List Nat :=
  (g.activeList mreg).filter (fun e => (g.mask m).getLsbD e)

/-- Where an element of a cross-element word reads (R215). -/
inductive Source where
  /-- position `p` of va -/
  | pos (p : Nat)
  /-- a value the word's rule gives, and whether it is valid -/
  | value (x : Nat) (valid : Bool)
  /-- the element keeps its value and is invalid -/
  | keep

/-- The read of R215 for element `e`: `reads p` says that position p is active or a helper that takes part. -/
def crossRead (g : Grp) (va w e : Nat) (reads : Nat → Bool) : Source → Option (Nat × Bool)
  | .pos p => some (if reads p then (g.elem va w p, true) else (g.elem va w e, false))
  | .value x ok => some (x, ok)
  | .keep => none

/-- A cross-element word (R215): the elements `es` read as `src` says. Validity bits are written for elements below VL. -/
def Grp.cross (g : Grp) (v : VView) (es : List Nat) (reads : Nat → Bool) (src : Nat → Source) : Grp :=
  let w := typeWidth (g.typeOf v)
  let rs := es.filterMap (fun e => (crossRead g v.va w e reads (src e)).map (fun r => (e, r)))
  (g.putAll v.vd w (rs.map (fun r => (r.1, r.2.1)))).putValid v
    ((rs.filter (fun r => r.2.2 && decide (r.1 < g.vl))).map Prod.fst)

/-- A permute or slide over the active elements (R216). -/
def Grp.slide (g : Grp) (v : VView) (src : Nat → Source) : Grp :=
  g.cross v (g.activeList v.mreg) (fun p => g.active v.mreg p) src

/-- Helper elements that take part: those of a quad with an active element (R220). -/
def Grp.helpers (g : Grp) (mreg : Nat) : List Nat :=
  (upFrom g.vl (roundUp g.vl 4 - g.vl)).filter (fun e => (upFrom (e / 4 * 4) 4).any (fun k => g.active mreg k))

/-- A quad exchange (R217-R220): `perm` maps a place within the quad. -/
def Grp.quad (g : Grp) (f : FV) (perm : Nat → Nat) : Grp :=
  let v := f.view
  let w := typeWidth (g.typeOf v)
  let hs := if bitOf v.imm 15 then g.helpers v.mreg else []
  g.cross v (g.activeList v.mreg ++ hs) (fun p => g.active v.mreg p || hs.contains p) (fun e =>
    let p := e / 4 * 4 + perm (e % 4)
    if p ≥ g.vl && !hs.contains p then .value (g.elem v.va w e) false else .pos p)

/-- A compare (R212). -/
def Grp.compare (g : Grp) (f : FV) (op : Nat → Nat → Nat → Bool × Nat) : Grp :=
  let v := f.view
  let t := g.typeOf v
  let w := typeWidth t
  let rs := (g.activeList v.mreg).map (fun e => (e, op t (g.elem v.va w e) (g.elem v.vb w e)))
  (g.putBits v.vd (rs.map (fun r => (r.1, r.2.1)))).raiseElements v (rs.map (fun r => (r.1, r.2.2)))

/-- `vcmpeq` of one element (R212). -/
def cmpEq (t a b : Nat) : Bool × Nat :=
  if isFloatCode t then (valueEq (readFloat t a) (readFloat t b), nvSig (readFloat t a) (readFloat t b))
  else (decide (a = b), 0)
/-- `vcmpne` of one element (R212). -/
def cmpNe (t a b : Nat) : Bool × Nat := (!(cmpEq t a b).1, (cmpEq t a b).2)
/-- `vcmplt` of one element (R212). -/
def cmpLt (t a b : Nat) : Bool × Nat :=
  if isFloatCode t then (valueLt (readFloat t a) (readFloat t b), nvAny (readFloat t a) (readFloat t b))
  else (decide (intValue t a < intValue t b), 0)
/-- `vcmple` of one element (R212). -/
def cmpLe (t a b : Nat) : Bool × Nat :=
  if isFloatCode t then
    (valueLt (readFloat t a) (readFloat t b) || valueEq (readFloat t a) (readFloat t b),
      nvAny (readFloat t a) (readFloat t b))
  else (decide (intValue t a ≤ intValue t b), 0)
/-- `vcmpun` of one element (R212). -/
def cmpUn (t a b : Nat) : Bool × Nat :=
  if isFloatCode t then ((readFloat t a).isNan || (readFloat t b).isNan, nvSig (readFloat t a) (readFloat t b))
  else (false, 0)

/-- A mask word over the active bits (R213). -/
def Grp.maskLogic (g : Grp) (f : FV) (op : Bool → Bool → Bool) : Grp :=
  let v := f.view
  let a := g.mask v.va
  let b := g.mask v.vb
  g.putBits v.vd ((g.activeList v.mreg).map (fun e => (e, op (a.getLsbD e) (b.getLsbD e))))

/-- f of R214: the first active element whose bit is set, or VL. -/
def Grp.firstSet (g : Grp) (v : VView) : Nat := (g.selected v.mreg v.va).headD g.vl

/-- `msbf`, `msif`, `msof` (R214). -/
def Grp.maskFirst (g : Grp) (f : FVS) (op : Nat → Nat → Bool) : Grp :=
  let v := f.view
  g.putBits v.vd ((g.activeList v.mreg).map (fun e => (e, op e (g.firstSet v))))

/-- The class bit of a float (R211). -/
def classBit (t x : Nat) : Nat :=
  let normal (m : Nat) : Bool := decide (m ≥ 2 ^ (floatFmt t).mbits)
  match readFloat t x with
  | .nan s => if s then 8 else 9
  | .inf n => if n then 0 else 7
  | .fin n m _ =>
    if m = 0 then (if n then 3 else 4)
    else if n then (if normal m then 1 else 2) else (if normal m then 6 else 5)

/-- `vbcast` at vector issue (R205). -/
def effVbcast (g : Grp) (f : FVS) (ops : List W64) : Grp :=
  g.putAll f.view.vd (typeWidth (g.typeOf f.view))
    ((g.activeList f.view.mreg).map (fun e => (e, scalarLow ops (typeWidth (g.typeOf f.view)))))
/-- `vbcast` (R205). -/
def execVbcast (f : FVS) (s : State) : Result := .next (issueVector (.vbcast f) { reads := [f.sb] } s)

/-- `vins` at vector issue (R205). -/
def effVins (g : Grp) (f : FVS) (ops : List W64) : Grp :=
  let idx := f.view.imm / 16
  let w := typeWidth (g.typeOf f.view)
  if g.active f.view.mreg idx then g.setElem f.view.vd w idx (scalarLow ops w) else g
/-- `vins` (R205). -/
def execVins (f : FVS) (s : State) : Result := .next (issueVector (.vins f) { reads := [f.sb] } s)

/-- `mput` at vector issue (R205). -/
def effMput (g : Grp) (f : FVS) (ops : List W64) : Grp :=
  let c := f.view.imm / 16 % 32
  let top := 32 * g.regWords / typeWidth (g.typeOf f.view)
  g.putBits f.view.vd
    ((upTo 64).map (fun i => (64 * c + i, (ops.headD 0).getLsbD i && decide (64 * c + i < top))))
/-- `mput` (R205). -/
def execMput (f : FVS) (s : State) : Result := .next (issueVector (.mput f) { reads := [f.sb] } s)

/-- `vget` at vector issue (R204). -/
def effVget (g : Grp) (f : FI) (_ops : List W64) (id : Nat) : Grp :=
  let t := (typeInForce g.fmt (f.imm.toNat % 16) 0).getD 8
  let idx := f.imm.toNat / 16 % 4096
  let live := decide (idx < g.vl) && (g.mask 0).getLsbD idx
  g.deliver id f.sd.toNat (if live then elemScalar t (g.elem f.sa.toNat (typeWidth t) idx) else 0)
/-- `vget` (R204). -/
def execVget (f : FI) (s : State) : Result := .next (issueVector (.vget f) { dest := some f.sd } s)

/-- `mget` at vector issue (R204). DESIGN CHOICE (log entry 35): mask bits at or beyond the greatest element count, which R37 says every
reading instruction ignores, are returned as they are stored, since R204 names bits 64c + 63 .. 64c regardless. -/
def effMget (g : Grp) (f : FI) (_ops : List W64) (id : Nat) : Grp :=
  g.deliver id f.sd.toNat ((g.mask f.sa.toNat).extractLsb' (64 * (f.imm.toNat / 256 % 32)) 64)
/-- `mget` (R204). -/
def execMget (f : FI) (s : State) : Result := .next (issueVector (.mget f) { dest := some f.sd } s)

/-- `vid` at vector issue (R210). -/
def effVid (g : Grp) (f : FV) (_ops : List W64) : Grp :=
  g.loop f.view (typeWidth (g.typeOf f.view)) (fun e => (e % 2 ^ typeWidth (g.typeOf f.view), 0))
/-- `vid` (R210). -/
def execVid (f : FV) (s : State) : Result := .next (issueVector (.vid f) {} s)

/-- `viota` at vector issue (R210). -/
def effViota (g : Grp) (f : FV) (_ops : List W64) : Grp :=
  let v := f.view
  let w := typeWidth (g.typeOf v)
  g.loop v w (fun e => (((g.selected v.mreg v.va).filter (fun i => i < e)).length % 2 ^ w, 0))
/-- `viota` (R210). -/
def execViota (f : FV) (s : State) : Result := .next (issueVector (.viota f) {} s)

/-- `vmerge` at vector issue (R210). -/
def effVmerge (g : Grp) (f : FV) (_ops : List W64) : Grp :=
  let v := f.view
  let w := typeWidth (g.typeOf v)
  g.loop v w (fun e => (g.elem (if (g.mask v.vc).getLsbD e then v.vb else v.va) w e, 0))
/-- `vmerge` (R210). -/
def execVmerge (f : FV) (s : State) : Result := .next (issueVector (.vmerge f) {} s)

/-- `vmv` at vector issue (R210). -/
def effVmv (g : Grp) (f : FV) (_ops : List W64) : Grp :=
  let w := typeWidth (g.typeOf f.view)
  g.loop f.view w (fun e => (g.elem f.view.va w e, 0))
/-- `vmv` (R210). -/
def execVmv (f : FV) (s : State) : Result := .next (issueVector (.vmv f) {} s)

/-- `vfclass` at vector issue (R211). -/
def effVfclass (g : Grp) (f : FV) (_ops : List W64) : Grp :=
  let t := g.typeOf f.view
  g.loop f.view (typeWidth t) (fun e => (2 ^ classBit t (g.elem f.view.va (typeWidth t) e), 0))
/-- `vfclass` (R211). -/
def execVfclass (f : FV) (s : State) : Result := .next (issueVector (.vfclass f) {} s)

/-- `vcmpeq` at vector issue (R212). -/
def effVcmpeq (g : Grp) (f : FV) (_ops : List W64) : Grp := g.compare f cmpEq
/-- `vcmpeq` (R212). -/
def execVcmpeq (f : FV) (s : State) : Result := .next (issueVector (.vcmpeq f) {} s)

/-- `vcmpne` at vector issue (R212). -/
def effVcmpne (g : Grp) (f : FV) (_ops : List W64) : Grp := g.compare f cmpNe
/-- `vcmpne` (R212). -/
def execVcmpne (f : FV) (s : State) : Result := .next (issueVector (.vcmpne f) {} s)

/-- `vcmplt` at vector issue (R212). -/
def effVcmplt (g : Grp) (f : FV) (_ops : List W64) : Grp := g.compare f cmpLt
/-- `vcmplt` (R212). -/
def execVcmplt (f : FV) (s : State) : Result := .next (issueVector (.vcmplt f) {} s)

/-- `vcmple` at vector issue (R212). -/
def effVcmple (g : Grp) (f : FV) (_ops : List W64) : Grp := g.compare f cmpLe
/-- `vcmple` (R212). -/
def execVcmple (f : FV) (s : State) : Result := .next (issueVector (.vcmple f) {} s)

/-- `vcmpun` at vector issue (R212). -/
def effVcmpun (g : Grp) (f : FV) (_ops : List W64) : Grp := g.compare f cmpUn
/-- `vcmpun` (R212). -/
def execVcmpun (f : FV) (s : State) : Result := .next (issueVector (.vcmpun f) {} s)

/-- `mand` at vector issue (R213). -/
def effMand (g : Grp) (f : FV) (_ops : List W64) : Grp := g.maskLogic f (fun a b => a && b)
/-- `mand` (R213). -/
def execMand (f : FV) (s : State) : Result := .next (issueVector (.mand f) {} s)

/-- `mor` at vector issue (R213). -/
def effMor (g : Grp) (f : FV) (_ops : List W64) : Grp := g.maskLogic f (fun a b => a || b)
/-- `mor` (R213). -/
def execMor (f : FV) (s : State) : Result := .next (issueVector (.mor f) {} s)

/-- `mxor` at vector issue (R213). -/
def effMxor (g : Grp) (f : FV) (_ops : List W64) : Grp := g.maskLogic f (fun a b => a != b)
/-- `mxor` (R213). -/
def execMxor (f : FV) (s : State) : Result := .next (issueVector (.mxor f) {} s)

/-- `mandn` at vector issue (R213). -/
def effMandn (g : Grp) (f : FV) (_ops : List W64) : Grp := g.maskLogic f (fun a b => a && !b)
/-- `mandn` (R213). -/
def execMandn (f : FV) (s : State) : Result := .next (issueVector (.mandn f) {} s)

/-- `mnot` at vector issue (R213). -/
def effMnot (g : Grp) (f : FV) (_ops : List W64) : Grp := g.maskLogic f (fun a _ => !a)
/-- `mnot` (R213). -/
def execMnot (f : FV) (s : State) : Result := .next (issueVector (.mnot f) {} s)

/-- `msbf` at vector issue (R214). -/
def effMsbf (g : Grp) (f : FVS) (_ops : List W64) : Grp := g.maskFirst f (fun e k => decide (e < k))
/-- `msbf` (R214). -/
def execMsbf (f : FVS) (s : State) : Result := .next (issueVector (.msbf f) {} s)

/-- `msif` at vector issue (R214). -/
def effMsif (g : Grp) (f : FVS) (_ops : List W64) : Grp := g.maskFirst f (fun e k => decide (e ≤ k))
/-- `msif` (R214). -/
def execMsif (f : FVS) (s : State) : Result := .next (issueVector (.msif f) {} s)

/-- `msof` at vector issue (R214). -/
def effMsof (g : Grp) (f : FVS) (_ops : List W64) : Grp := g.maskFirst f (fun e k => decide (e = k))
/-- `msof` (R214). -/
def execMsof (f : FVS) (s : State) : Result := .next (issueVector (.msof f) {} s)

/-- `mfirst` at vector issue (R214). -/
def effMfirst (g : Grp) (f : FVS) (_ops : List W64) (id : Nat) : Grp :=
  let k := g.firstSet f.view
  g.deliver id f.sb.toNat (if k = g.vl then 0xFFFFFFFFFFFFFFFF else BitVec.ofNat 64 k)
/-- `mfirst` (R214). -/
def execMfirst (f : FVS) (s : State) : Result := .next (issueVector (.mfirst f) { dest := some f.sb } s)

/-- `mpopc` at vector issue (R214). -/
def effMpopc (g : Grp) (f : FVS) (_ops : List W64) (id : Nat) : Grp :=
  g.deliver id f.sb.toNat (BitVec.ofNat 64 (g.selected f.view.mreg f.view.va).length)
/-- `mpopc` (R214). -/
def execMpopc (f : FVS) (s : State) : Result := .next (issueVector (.mpopc f) { dest := some f.sb } s)

/-- `vperm` at vector issue (R216). -/
def effVperm (g : Grp) (f : FV) (_ops : List W64) : Grp :=
  g.slide f.view (fun e =>
    let p := g.elem f.view.vb 16 e
    if p ≥ g.vl then .value 0 false else .pos p)
/-- `vperm` (R216). -/
def execVperm (f : FV) (s : State) : Result := .next (issueVector (.vperm f) {} s)

/-- `vrev` at vector issue (R216). -/
def effVrev (g : Grp) (f : FV) (_ops : List W64) : Grp := g.slide f.view (fun e => .pos (g.vl - 1 - e))
/-- `vrev` (R216). -/
def execVrev (f : FV) (s : State) : Result := .next (issueVector (.vrev f) {} s)

/-- `vslideup` at vector issue (R216). -/
def effVslideup (g : Grp) (f : FVS) (ops : List W64) : Grp :=
  let n := (ops.headD 0).toNat
  g.slide f.view (fun e => if e < n then .keep else .pos (e - n))
/-- `vslideup` (R216). -/
def execVslideup (f : FVS) (s : State) : Result := .next (issueVector (.vslideup f) { reads := [f.sb] } s)

/-- `vslidedn` at vector issue (R216). -/
def effVslidedn (g : Grp) (f : FVS) (ops : List W64) : Grp :=
  let n := (ops.headD 0).toNat
  g.slide f.view (fun e => if e + n < g.vl then .pos (e + n) else .value 0 false)
/-- `vslidedn` (R216). -/
def execVslidedn (f : FVS) (s : State) : Result := .next (issueVector (.vslidedn f) { reads := [f.sb] } s)

/-- `vslide1up` at vector issue (R216). -/
def effVslide1up (g : Grp) (f : FVS) (ops : List W64) : Grp :=
  g.slide f.view (fun e =>
    if e = 0 then .value (scalarLow ops (typeWidth (g.typeOf f.view))) true else .pos (e - 1))
/-- `vslide1up` (R216). -/
def execVslide1up (f : FVS) (s : State) : Result := .next (issueVector (.vslide1up f) { reads := [f.sb] } s)

/-- `vslide1dn` at vector issue (R216). -/
def effVslide1dn (g : Grp) (f : FVS) (ops : List W64) : Grp :=
  g.slide f.view (fun e =>
    if e + 1 = g.vl then .value (scalarLow ops (typeWidth (g.typeOf f.view))) true else .pos (e + 1))
/-- `vslide1dn` (R216). -/
def execVslide1dn (f : FVS) (s : State) : Result := .next (issueVector (.vslide1dn f) { reads := [f.sb] } s)

/-- `vqx` at vector issue (R218). -/
def effVqx (g : Grp) (f : FV) (_ops : List W64) : Grp := g.quad f (fun j => Nat.xor j 1)
/-- `vqx` (R218). -/
def execVqx (f : FV) (s : State) : Result := .next (issueVector (.vqx f) {} s)

/-- `vqy` at vector issue (R218). -/
def effVqy (g : Grp) (f : FV) (_ops : List W64) : Grp := g.quad f (fun j => Nat.xor j 2)
/-- `vqy` (R218). -/
def execVqy (f : FV) (s : State) : Result := .next (issueVector (.vqy f) {} s)

/-- `vqd` at vector issue (R218). -/
def effVqd (g : Grp) (f : FV) (_ops : List W64) : Grp := g.quad f (fun j => Nat.xor j 3)
/-- `vqd` (R218). -/
def execVqd (f : FV) (s : State) : Result := .next (issueVector (.vqd f) {} s)

/-- `vqbc` at vector issue (R218). -/
def effVqbc (g : Grp) (f : FV) (_ops : List W64) : Grp := g.quad f (fun _ => f.view.imm / 16 % 4)
/-- `vqbc` (R218). -/
def execVqbc (f : FV) (s : State) : Result := .next (issueVector (.vqbc f) {} s)

/-- `vcompress` at vector issue (R224). -/
def effVcompress (g : Grp) (f : FV) (_ops : List W64) : Grp :=
  let v := f.view
  let w := typeWidth (g.typeOf v)
  let vals := (g.selected v.mreg v.vb).map (fun e => g.elem v.va w e)
  (g.putAll v.vd w ((upTo vals.length).zip vals)).putValid v (upTo vals.length)
/-- `vcompress` (R224). -/
def execVcompress (f : FV) (s : State) : Result := .next (issueVector (.vcompress f) {} s)

/-- `vexpand` at vector issue (R224). -/
def effVexpand (g : Grp) (f : FV) (_ops : List W64) : Grp :=
  let v := f.view
  let w := typeWidth (g.typeOf v)
  let es := g.selected v.mreg v.vb
  (g.putAll v.vd w (es.zip ((upTo es.length).map (fun k => g.elem v.va w k)))).putValid v es
/-- `vexpand` (R224). -/
def execVexpand (f : FV) (s : State) : Result := .next (issueVector (.vexpand f) {} s)

/-- `vsetvl` at vector issue (R180). -/
def effVsetvl (g : Grp) (f : FI) (ops : List W64) (id : Nat) : Grp :=
  let fmt := f.imm.toNat % 16
  let code := f.imm.toNat / 16 % 8
  let blk := 16 * 2 ^ code
  let avl := (ops.headD 0).toNat
  let vl := min (32 * g.regWords / typeWidth fmt) (roundUp avl blk)
  let conf := setBitsOf (setBitsOf g.vconf.toNat 2 4 fmt) 10 3 code
  let g := { g with vl := vl, vtail := min avl vl, vconf := BitVec.ofNat 64 conf }
  g.deliver id f.sd.toNat (BitVec.ofNat 64 vl)
/-- `vsetvl` (R180). -/
def execVsetvl (f : FI) (s : State) : Result := .next (issueVector (.vsetvl f) { reads := [f.sa], dest := some f.sd } s)

end Sys2Proof.Machine
end

