-- ==== Sys2Proof/Machine/VecReduce.lean ====
section
/-!
DEFINITION. Reductions to a scalar (R221, R222) and the segmented scans and reductions (R223).
-/
namespace Sys2Proof.Machine

/-- Two values and their flags combined; an absent one is left out (R222). -/
def treeNode (op : Nat → Nat → Nat × Nat) : Option (Nat × Nat) → Option (Nat × Nat) → Option (Nat × Nat)
  | none, y => y
  | x, none => x
  | some (a, fa), some (b, fb) => some ((op a b).1, Nat.lor (Nat.lor fa fb) (op a b).2)

/-- One level of the tree: neighbours combined. -/
def treeLevel (op : Nat → Nat → Nat × Nat) : List (Option (Nat × Nat)) → List (Option (Nat × Nat))
  | x :: y :: t => treeNode op x y :: treeLevel op t
  | [x] => [treeNode op x none]
  | [] => []

/-- THE REDUCTION TREE of R222, through the levels given: the root and the flags of every node. -/
def redTree (op : Nat → Nat → Nat × Nat) : Nat → List (Option (Nat × Nat)) → Option (Nat × Nat)
  | 0, xs => xs.headD none
  | n + 1, xs => redTree op n (treeLevel op xs)

/-- The elements that a reduction combines: active and below VTAIL (R221). -/
def Grp.combined (g : Grp) (v : VView) (w : Nat) : List (Nat × Nat) :=
  (g.accessed v.mreg).map (fun e => (e, g.elem v.va w e))

/-- The value of a tree reduction from the initial value, and its flags (R221, R222). -/
def Grp.treeReduce (g : Grp) (v : VView) (w i : Nat) (op : Nat → Nat → Nat × Nat) : Nat × Nat :=
  let xs := (upTo g.vl).map (fun e =>
    if g.active v.mreg e && decide (e < g.vtail) then some (g.elem v.va w e, 0) else none)
  match redTree op 12 xs with
  | none => (i, 0)
  | some (r, fl) => ((op i r).1, Nat.lor fl (op i r).2)

/-- `vredsum` (R221): an integer sum is exact and wrapped, or clamped once. -/
def redSum (g : Grp) (v : VView) (t i : Nat) : Nat × Nat :=
  let w := typeWidth t
  if isFloatCode t then
    g.treeReduce v w i (fun a b => floatAdd t (g.rmOf v) (readFloat t a) (readFloat t b))
  else intResult t (v.sat = 1) (intValue t i + ((g.combined v w).map (fun p => intValue t p.2)).sum)

/-- `vredmin` and the others that combine element by element (R221). -/
def redWith (op : ElemOp) (g : Grp) (v : VView) (t i : Nat) : Nat × Nat :=
  g.treeReduce v (typeWidth t) i (fun a b => op t (g.rmOf v) false a b)

/-- The result of a reduction word and its flags. -/
def reduceResult (g : Grp) (i : Instr) (ops : List W64) : Nat × Nat :=
  let run (f : FVS) (op : Grp → VView → Nat → Nat → Nat × Nat) : Nat × Nat :=
    let t := g.typeOf f.view
    op g f.view t (scalarLow ops (typeWidth t))
  match i with
  | .vredsum f => run f redSum
  | .vredmin f => run f (redWith opMin)
  | .vredmax f => run f (redWith opMax)
  | .vredand f => run f (redWith opAnd)
  | .vredor f => run f (redWith opOr)
  | .vredxor f => run f (redWith opXor)
  | _ => (0, 0)

/-- The fields of a reduction word. -/
def reductionOf : Instr → Option FVS
  | .vredsum f | .vredmin f | .vredmax f | .vredand f | .vredor f | .vredxor f => some f
  | _ => none

/-- A reduction starts at vector issue: its sources are read, and its scalar is written later (R201, R222). `got` holds the
type and value, and the flags. -/
def startReduce (s : State) (tag : Nat) (g : Grp) (f : FVS) (fl : Flight) : State :=
  let r := reduceResult g fl.entry.instr fl.entry.ops
  s.setGrp tag (g.setFlight { fl with phase := .reducing, width := g.typeOf f.view, got := [r] })

/-- The oldest reduction under way writes its scalar and lowers its flags (R221, R222). -/
def tryReductionComplete (s : State) (tag : Nat) : Option State := do
  let g ← s.grp tag
  let fl ← g.flights.find? (fun f => f.phase = .reducing)
  let f ← reductionOf fl.entry.instr
  let (x, flags) ← fl.got.head?
  let g := (g.setReg f.sb.toNat (elemScalar fl.width x)).vectorFlags flags
  some (s.setGrp tag (g.complete fl.entry))

/-- REDUCTION_COMPLETE (R222). -/
def execReductionComplete (gtag : Nat) (s : State) : Result := eventResult s (tryReductionComplete s gtag)

/-- A reduction enters the queue (R201, R221). -/
def issueReduce (i : Instr) (f : FVS) (s : State) : Result := .next (issueVector i { reads := [f.sb], cf := f.cf } s)

/-- `vredsum` (R221). -/
def execVredsum (f : FVS) (s : State) : Result := issueReduce (.vredsum f) f s
/-- `vredmin` (R221). -/
def execVredmin (f : FVS) (s : State) : Result := issueReduce (.vredmin f) f s
/-- `vredmax` (R221). -/
def execVredmax (f : FVS) (s : State) : Result := issueReduce (.vredmax f) f s
/-- `vredand` (R221). -/
def execVredand (f : FVS) (s : State) : Result := issueReduce (.vredand f) f s
/-- `vredor` (R221). -/
def execVredor (f : FVS) (s : State) : Result := issueReduce (.vredor f) f s
/-- `vredxor` (R221). -/
def execVredxor (f : FVS) (s : State) : Result := issueReduce (.vredxor f) f s

/-- What a segmented word has found at an element: the running value of its segment, the value it writes, and flags. -/
structure SegElem where
  elem : Nat
  head : Nat
  contributes : Bool
  value : Nat
  flags : Nat
  deriving DecidableEq, Repr

/-- THE SEGMENT FOLD of R223 over the elements in order: `head` is the segment's first element and `run` its running value. -/
def segFold (op : Nat → Nat → Nat × Nat) (starts contrib : Nat → Bool) (x : Nat → Nat) :
    Nat → Option Nat → List Nat → List SegElem
  | _, _, [] => []
  | head, run, e :: rest =>
    let head := if starts e then e else head
    let run := if starts e then none else run
    if contrib e then
      match run with
      | none => ⟨e, head, true, x e, 0⟩ :: segFold op starts contrib x head (some (x e)) rest
      | some r =>
        ⟨e, head, true, (op r (x e)).1, (op r (x e)).2⟩ :: segFold op starts contrib x head (some (op r (x e)).1) rest
    else ⟨e, head, false, 0, 0⟩ :: segFold op starts contrib x head run rest

/-- The fold of a segmented word. -/
def Grp.segments (g : Grp) (v : VView) (op : ElemOp) : List SegElem :=
  let t := g.typeOf v
  segFold (op t (g.rmOf v) (v.sat = 1)) (fun e => decide (e = 0) || (g.mask v.vb).getLsbD e)
    (fun e => g.active v.mreg e && decide (e < g.vtail)) (fun e => g.elem v.va (typeWidth t) e) 0 none (upTo g.vl)

/-- `vsegscan` (R223). -/
def Grp.segScan (g : Grp) (f : FV) (op : ElemOp) : Grp :=
  let v := f.view
  let rs := (g.segments v op).filter (fun r => r.contributes)
  (g.putAll v.vd (typeWidth (g.typeOf v)) (rs.map (fun r => (r.elem, r.value)))).vectorFlags
    (rs.foldl (fun x r => Nat.lor x r.flags) 0)

/-- `vsegred` (R223): the last running value of each segment, at its first element when that is active. -/
def Grp.segReduce (g : Grp) (f : FV) (op : ElemOp) : Grp :=
  let v := f.view
  let rs := (g.segments v op).filter (fun r => r.contributes)
  let last (h : Nat) : Option Nat := ((rs.filter (fun r => r.head = h)).getLast?).map (fun r => r.value)
  let ws := (upTo g.vl).filterMap (fun h => if g.active v.mreg h then (last h).map (fun x => (h, x)) else none)
  (g.putAll v.vd (typeWidth (g.typeOf v)) ws).vectorFlags (rs.foldl (fun x r => Nat.lor x r.flags) 0)

/-- `vsegscan.add` at vector issue (R223). -/
def effVsegscanAdd (g : Grp) (f : FV) (_ops : List W64) : Grp := g.segScan f opAdd
/-- `vsegscan.add` (R223). -/
def execVsegscanAdd (f : FV) (s : State) : Result := .next (issueVector (.vsegscanAdd f) {} s)
/-- `vsegscan.min` at vector issue (R223). -/
def effVsegscanMin (g : Grp) (f : FV) (_ops : List W64) : Grp := g.segScan f opMin
/-- `vsegscan.min` (R223). -/
def execVsegscanMin (f : FV) (s : State) : Result := .next (issueVector (.vsegscanMin f) {} s)
/-- `vsegscan.max` at vector issue (R223). -/
def effVsegscanMax (g : Grp) (f : FV) (_ops : List W64) : Grp := g.segScan f opMax
/-- `vsegscan.max` (R223). -/
def execVsegscanMax (f : FV) (s : State) : Result := .next (issueVector (.vsegscanMax f) {} s)
/-- `vsegred.add` at vector issue (R223). -/
def effVsegredAdd (g : Grp) (f : FV) (_ops : List W64) : Grp := g.segReduce f opAdd
/-- `vsegred.add` (R223). -/
def execVsegredAdd (f : FV) (s : State) : Result := .next (issueVector (.vsegredAdd f) {} s)
/-- `vsegred.min` at vector issue (R223). -/
def effVsegredMin (g : Grp) (f : FV) (_ops : List W64) : Grp := g.segReduce f opMin
/-- `vsegred.min` (R223). -/
def execVsegredMin (f : FV) (s : State) : Result := .next (issueVector (.vsegredMin f) {} s)
/-- `vsegred.max` at vector issue (R223). -/
def effVsegredMax (g : Grp) (f : FV) (_ops : List W64) : Grp := g.segReduce f opMax
/-- `vsegred.max` (R223). -/
def execVsegredMax (f : FV) (s : State) : Result := .next (issueVector (.vsegredMax f) {} s)

end Sys2Proof.Machine
end

