-- ==== Sys2Proof/Machine/VectorUnit.lean ====
section
/-!
DEFINITION. The way of a vector-side word from the queue to its end (R133, R139-R141, R148-R151, R306, R416): the checks when
it leaves the queue, the probe, the commit, the vector issue, and the return of what it does.
-/
namespace Sys2Proof.Machine

/-- The effect on its group of a word that the vector unit executes at once: on `ops`, the scalars that it took with it, as
instruction number `id`. None for a word that does something else. -/
def vectorEffect (g : Grp) (ops : List W64) (id : Nat) : Instr → Option Grp
  | .vbcast f => some (effVbcast g f ops)
  | .vins f => some (effVins g f ops)
  | .mput f => some (effMput g f ops)
  | .vget f => some (effVget g f ops id)
  | .mget f => some (effMget g f ops id)
  | .vadd f => some (effVadd g f ops)
  | .vsub f => some (effVsub g f ops)
  | .vmul f => some (effVmul g f ops)
  | .vmin f => some (effVmin g f ops)
  | .vmax f => some (effVmax g f ops)
  | .vand f => some (effVand g f ops)
  | .vor f => some (effVor g f ops)
  | .vxor f => some (effVxor g f ops)
  | .vnot f => some (effVnot g f ops)
  | .vsll f => some (effVsll g f ops)
  | .vsrl f => some (effVsrl g f ops)
  | .vsra f => some (effVsra g f ops)
  | .vaddVs f => some (effVaddVs g f ops)
  | .vsubVs f => some (effVsubVs g f ops)
  | .vmulVs f => some (effVmulVs g f ops)
  | .vminVs f => some (effVminVs g f ops)
  | .vmaxVs f => some (effVmaxVs g f ops)
  | .vandVs f => some (effVandVs g f ops)
  | .vorVs f => some (effVorVs g f ops)
  | .vxorVs f => some (effVxorVs g f ops)
  | .vsllVs f => some (effVsllVs g f ops)
  | .vsrlVs f => some (effVsrlVs g f ops)
  | .vsraVs f => some (effVsraVs g f ops)
  | .vdiv f => some (effVdiv g f ops)
  | .vsqrt f => some (effVsqrt g f ops)
  | .vabs f => some (effVabs g f ops)
  | .vneg f => some (effVneg g f ops)
  | .vffma f => some (effVffma g f ops)
  | .vffms f => some (effVffms g f ops)
  | .vffnma f => some (effVffnma g f ops)
  | .vffnms f => some (effVffnms g f ops)
  | .vmulh f => some (effVmulh g f ops)
  | .vabd f => some (effVabd g f ops)
  | .vwadd f => some (effVwadd g f ops)
  | .vwmul f => some (effVwmul g f ops)
  | .vfexp2 f => some (effVfexp2 g f ops)
  | .vflog2 f => some (effVflog2 g f ops)
  | .vfrcp f => some (effVfrcp g f ops)
  | .vfrsq f => some (effVfrsq g f ops)
  | .vftanh f => some (effVftanh g f ops)
  | .vdot4 f => some (effVdot4 g f ops)
  | .vfdot2 f => some (effVfdot2 g f ops)
  | .vfdot4 f => some (effVfdot4 g f ops)
  | .vid f => some (effVid g f ops)
  | .viota f => some (effViota g f ops)
  | .vmerge f => some (effVmerge g f ops)
  | .vmv f => some (effVmv g f ops)
  | .vaddImm f => some (effVaddImm g f ops)
  | .vandImm f => some (effVandImm g f ops)
  | .vsllImm f => some (effVsllImm g f ops)
  | .vsrlImm f => some (effVsrlImm g f ops)
  | .vsraImm f => some (effVsraImm g f ops)
  | .vclz f => some (effVclz g f ops)
  | .vctz f => some (effVctz g f ops)
  | .vpopc f => some (effVpopc g f ops)
  | .vfsgnj f => some (effVfsgnj g f ops)
  | .vfround f => some (effVfround g f ops)
  | .vcvt f => some (effVcvt g f ops)
  | .vwcvt f => some (effVwcvt g f ops)
  | .vncvt f => some (effVncvt g f ops)
  | .vqscale f => some (effVqscale g f ops)
  | .vqapply f => some (effVqapply g f ops)
  | .vdqapply f => some (effVdqapply g f ops)
  | .vcmpeq f => some (effVcmpeq g f ops)
  | .vcmpne f => some (effVcmpne g f ops)
  | .vcmplt f => some (effVcmplt g f ops)
  | .vcmple f => some (effVcmple g f ops)
  | .vcmpun f => some (effVcmpun g f ops)
  | .mand f => some (effMand g f ops)
  | .mor f => some (effMor g f ops)
  | .mxor f => some (effMxor g f ops)
  | .mandn f => some (effMandn g f ops)
  | .mnot f => some (effMnot g f ops)
  | .msbf f => some (effMsbf g f ops)
  | .msif f => some (effMsif g f ops)
  | .msof f => some (effMsof g f ops)
  | .mfirst f => some (effMfirst g f ops id)
  | .mpopc f => some (effMpopc g f ops id)
  | .vsetvl f => some (effVsetvl g f ops id)
  | .vbpack f => some (effVbpack g f ops)
  | .vbunpack f => some (effVbunpack g f ops)
  | .vfclass f => some (effVfclass g f ops)
  | .vperm f => some (effVperm g f ops)
  | .vrev f => some (effVrev g f ops)
  | .vslideup f => some (effVslideup g f ops)
  | .vslidedn f => some (effVslidedn g f ops)
  | .vslide1up f => some (effVslide1up g f ops)
  | .vslide1dn f => some (effVslide1dn g f ops)
  | .vqx f => some (effVqx g f ops)
  | .vqy f => some (effVqy g f ops)
  | .vqd f => some (effVqd g f ops)
  | .vqbc f => some (effVqbc g f ops)
  | .vsegscanAdd f => some (effVsegscanAdd g f ops)
  | .vsegscanMin f => some (effVsegscanMin g f ops)
  | .vsegscanMax f => some (effVsegscanMax g f ops)
  | .vsegredAdd f => some (effVsegredAdd g f ops)
  | .vsegredMin f => some (effVsegredMin g f ops)
  | .vsegredMax f => some (effVsegredMax g f ops)
  | .vcompress f => some (effVcompress g f ops)
  | .vexpand f => some (effVexpand g f ops)
  | .mxext f => some (effMxext g f ops)
  | .mxmovIn f => some (effMxmovIn g f ops)
  | .mxmovOut f => some (effMxmovOut g f ops)
  | .mxclr f => some (effMxclr g f ops)
  | .vrank f => some (effVrank g f ops)
  | .vrankMag f => some (effVrankMag g f ops)
  | .vrkmerge f => some (effVrkmerge g f ops)
  | .vrkpack f => some (effVrkpack g f ops)
  | .unrank f => some (effUnrank g f ops)
  | _ => none

/-- The check of operands at widths that are not their row's: (register, width, elements). -/
def Grp.spansTrap (g : Grp) (l : List (Nat × Nat × Nat)) : Option TrapInfo :=
  lowestTrap (l.map (fun p => g.spanTrap p.1 (g.span p.2.1 p.2.2)))

/-- A dot product's operands (R209): `k` source elements to one. -/
def Grp.dotSpans (g : Grp) (f : FV) (k : Nat) : List (Nat × Nat × Nat) :=
  let v := f.view
  let w := typeWidth (g.typeOf v)
  [(v.vd, 32, ceilDiv g.vl k), (v.va, w, g.vl), (v.vb, w, g.vl), (v.vc, 32, ceilDiv g.vl k)]

/-- A widening word's operands (R206). -/
def Grp.wideSpans (g : Grp) (f : FV) : List (Nat × Nat × Nat) :=
  let v := f.view
  let w := typeWidth (g.typeOf v)
  [(v.vd, 2 * w, g.vl), (v.va, w, g.vl), (v.vb, w, g.vl)]

/-- `vperm`'s operands (R216). -/
def Grp.permSpans (g : Grp) (f : FV) : List (Nat × Nat × Nat) :=
  let v := f.view
  let w := typeWidth (g.typeOf v)
  [(v.vd, w, g.vl), (v.va, w, g.vl), (v.vb, 16, g.vl)]

/-- The operands of a word as (register, width, elements) where they are not all of its row's width (R177). -/
def Grp.ownSpans (g : Grp) : Instr → Option (List (Nat × Nat × Nat))
  | .vwadd f | .vwmul f => some (g.wideSpans f)
  | .vdot4 f | .vfdot4 f => some (g.dotSpans f 4)
  | .vfdot2 f => some (g.dotSpans f 2)
  | .vperm f => some (g.permSpans f)
  | .vget f => some [(f.sa.toNat, typeWidth ((typeInForce g.fmt (f.imm.toNat % 16) 0).getD 8), g.vl)]
  | _ => none

/-- The checks of a word of R197 when it leaves the queue (R69, R177, R198): its type, then its operands. -/
def Grp.rowChecks (g : Grp) (i : Instr) : Option TrapInfo :=
  match i.vrow with
  | none => (g.ownSpans i).bind (fun l => g.spansTrap l)
  | some (r, v) =>
    match g.rowTrap r v with
    | some t => some t
    | none =>
      match g.ownSpans i with
      | some l => g.spansTrap l
      | none => lowestTrap (g.spanTraps (VRow.spans r v (typeWidth (g.typeOf v)) g.vl))

/-- THE CHECKS WHEN A WORD LEAVES THE QUEUE (R416), but for those that its probe makes: the trap of the first that fails. -/
def Grp.exitTrap (g : Grp) (e : VEntry) : Option TrapInfo :=
  match e.instr with
  | .vcvt f => g.convertTrap 0 f
  | .vwcvt f => g.convertTrap 1 f
  | .vncvt f => g.convertTrap 2 f
  | .vqscale f => g.quantTrap f.view [] [f.view.va] f.view.vd
  | .vqapply f => g.quantTrap f.view [f.view.vd] [f.view.va] f.view.vb
  | .vdqapply f => g.quantTrap f.view [f.view.va] [f.view.vd] f.view.vb
  | .vbpack f => g.planeTrap f.view f.view.va f.view.vd
  | .vbunpack f => g.planeTrap f.view f.view.vd f.view.va
  | .vrank f => firstTrap [g.rowTrap (VRow.rank [8, 9, 10, 2, 1]) f.view, g.rankTrap f.view]
  | .vrankMag f => firstTrap [g.rowTrap (VRow.rank floatTypes) f.view, g.rankTrap f.view]
  | .vrkmerge f => g.keyedTrap f.view false
  | .vrkpack f => g.keyedTrap f.view true
  | .unrank f => firstTrap [g.rowTrap VRow.unrank f.view, g.unrankTrap f.view]
  | .mxext f => g.tileTrap f.reg (typeWidth f.afmt.toNat)
  | .mxmovIn f | .mxmovOut f => g.tileTrap f.reg 32
  | .vlds f | .vsts f => firstTrap [g.spadWordTrap f, g.spadFault f e.ops]
  | .vldp f | .vstp f => g.spadWordTrap f
  | .vprefetch f => g.prefetchTrap f
  | .setsr f => setsrTrap f e.ops
  | i =>
    match memWordOf i, passOf i with
    | some w, _ => g.memTrap w e.ops
    | none, some p => g.passTrap p e.ops
    | none, none => g.rowChecks i

/-- A word makes a Daybreak probe before it commits (R306). -/
def probes (i : Instr) : Bool :=
  (match memWordOf i with | some w => !w.remote | none => false) || (passOf i).isSome || (tableWord i).isSome

/-- The word that a group's next probe is for (R306): the head of the queue, or behind passes that wait in the reservation table
the first word that is none of them (R263). -/
def probeTarget (u : ClusterUnit) (tag : Nat) : List VEntry → Option VEntry
  | [] => none
  | e :: rest =>
    if e.trap.isSome then none
    else if e.probe.isNone then some e
    else if u.table.any (fun t => t.gtag = tag && t.id = e.id) then probeTarget u tag rest
    else none

/-- A probe's end recorded with its word. -/
def probed (tag : Nat) (g : Grp) (e : VEntry) (s : State) : Probed → Option State
  | .ok s accs => some (s.setGrp tag (g.setEntry { e with probe := some accs }))
  | .trap s i => some (s.setGrp tag (g.setEntry { e with trap := some i }))
  | .wait s' => ifMoved s s'

/-- Vector registers that a word reads or writes, as (first, how many) (R177). -/
def Grp.operandRanges (g : Grp) (i : Instr) : List (Nat × Nat) :=
  let at_ (x w : Nat) : Nat × Nat := (x, g.span w g.vl)
  let pair (x c w : Nat) : Nat × Nat := (x, g.keySpan c w + g.indexSpan c)
  let mem (f : FM) (pairs : Nat) : List (Nat × Nat) :=
    [(f.vd.toNat, pairs * g.span (FM.esize g f) g.vl)] ++ (if f.am.toNat ≥ 2 then [at_ f.vi.toNat 32] else [])
  match i with
  | .vcvt f | .vwcvt f | .vncvt f =>
    [at_ f.view.vd (typeWidth (g.codeOf f.view.ty)), at_ f.view.va (typeWidth (g.codeOf f.view.ty2))]
  | .vqscale f => [(f.view.vd, 1), at_ f.view.va (typeWidth (g.codeOf f.view.ty2))]
  | .vqapply f =>
    [at_ f.view.vd (typeWidth (g.codeOf f.view.ty)), at_ f.view.va (typeWidth (g.codeOf f.view.ty2)), (f.view.vb, 1)]
  | .vdqapply f =>
    [at_ f.view.va (typeWidth (g.codeOf f.view.ty)), at_ f.view.vd (typeWidth (g.codeOf f.view.ty2)), (f.view.vb, 1)]
  | .vbpack f => [at_ f.view.va 8, (f.view.vd, g.planeSpan)]
  | .vbunpack f => [at_ f.view.vd 8, (f.view.va, g.planeSpan)]
  | .vrank f | .vrankMag f =>
    let w := typeWidth (g.typeOf f.view)
    [pair f.view.vd (rankCount f.view) w, at_ f.view.va w]
  | .vrkmerge f =>
    let w := typeWidth (g.typeOf f.view)
    let k := listCount f.view
    [pair f.view.vd k w, pair f.view.va k w, pair f.view.vb k w]
  | .vrkpack f =>
    let k := listCount f.view
    [(f.view.vd, g.span 16 k), pair f.view.va k (typeWidth (g.typeOf f.view))]
  | .unrank f => [at_ f.view.vd (typeWidth (g.typeOf f.view)), (f.view.va, g.span 16 (listCount f.view))]
  | .mxext f => at_ f.reg (typeWidth f.afmt.toNat) :: (if f.scl then [(f.vs, 1)] else [])
  | .mxmovIn f | .mxmovOut f => [at_ f.reg 32]
  | .vlds f | .vsts f | .vldp f | .vstp f => mem f 1
  | .vprefetch f => if f.am.toNat ≥ 2 then [at_ f.vi.toNat 32] else []
  | i =>
    match memWordOf i with
    | some w => if w.op = .line then (if w.f.am.toNat ≥ 2 then [at_ w.f.vi.toNat 32] else []) else mem w.f (if w.op = .cas then 2 else 1)
    | none =>
      match g.ownSpans i, i.vrow with
      | some l, _ => l.map (fun p => (p.1, g.span p.2.1 p.2.2))
      | none, some (r, v) => (r.vregs v).map (fun x => at_ x (typeWidth (g.typeOf v)))
      | none, none => []

/-- Mask registers that a word may read or write (R176). -/
def masksOf (i : Instr) : Option (List Nat) :=
  match i with
  | .vldp f | .vstp f => some [0, f.mreg.toNat, f.sb.toNat % 8]
  | i => (memWordOf i).map (fun w => [0, w.f.mreg.toNat])

/-- A flight of the group has still to write a register or mask that the word uses (R141, R148). -/
def Grp.hazard (g : Grp) (i : Instr) : Bool :=
  let mine := g.operandRanges i
  g.flights.any (fun f =>
    rangesMeet f.regs mine
      || (match f.entry.instr, masksOf i with
          | .vldp h, some ms | .vstp h, some ms => ms.contains (h.sb.toNat % 8)
          | .vldp _, none | .vstp _, none => true
          | .ldattRec _, _ => (match i with | .unrank _ => true | .setsr h => decide (h.index = 0x012) | _ => false)
          | .ldattAtt _, _ => (match i with | .setsr h => decide (h.index = 0x011) | _ => false)
          | _, _ => false))

/-- THE DAYBREAK PROBE of a group's next word (R306), after the checks that come before it (R416): it waits for older words that
have still to write a register or mask that the word uses. -/
def tryDaybreakProbe (s : State) (tag : Nat) : Option State := do
  let g ← s.grp tag
  let e ← probeTarget (s.clusterAt (clusterOf g.core)) tag g.vq
  if !probes e.instr || !g.headOpen e || g.hazard e.instr then none
  else
    match g.exitTrap e with
    | some i => some (s.setGrp tag (g.setEntry { e with trap := some i }))
    | none =>
      match memWordOf e.instr, passOf e.instr, tableWord e.instr with
      | some w, _, _ => probed tag g e s (probeWord s g w e.ops)
      | none, some p, _ => if p.live g then probePass s tag g e p else probed tag g e s (.ok s [])
      | none, none, some (_, f) => probed tag g e s (probeTable s g f e.ops)
      | none, none, none => none

/-- DAYBREAK_PROBE (R306). -/
def execDaybreakProbe (gtag : Nat) (s : State) : Result := eventResult s (tryDaybreakProbe s gtag)

/-- The registers that a flight will still write after its vector issue. -/
def Grp.writtenLater (g : Grp) (i : Instr) : List (Nat × Nat) :=
  match i with
  | .vldp _ => (g.operandRanges i).take 1
  | i =>
    match memWordOf i with
    | some w => if w.op.writesReg then (g.operandRanges i).take 1 else []
    | none => []

/-- The head of the queue leaves it as a committed instruction. -/
def Grp.commitHead (g : Grp) (e : VEntry) : Grp :=
  let g' := match memWordOf e.instr with
    | some w => if w.op = MemOp.load then g.trim w.f (e.probe.getD []) else g
    | none => g
  let trimmed := match memWordOf e.instr with
    | some w => decide (w.op = MemOp.load) && g.trims w.f (e.probe.getD [])
    | none => false
  let fl : Flight := { entry := e, todo := e.probe.getD [], regs := g.writtenLater e.instr, trimmed := trimmed }
  { g' with vq := g.vq.tail, flights := g.flights ++ [fl] }.freeUndo

/-- A word that commits and completes in one. -/
def Grp.commitDone (g : Grp) (e : VEntry) : Grp := ({ g with vq := g.vq.tail }.complete e).freeUndo

/-- Words whose end lowers LD (R150). -/
def isLoadWord (i : Instr) : Bool :=
  (tableWord i).isSome || (match memWordOf i with | some w => decide (w.op = .load) && !w.remote | none => false)
/-- Vector stores and cache operations (R150). -/
def isStoreWord (i : Instr) : Bool :=
  match memWordOf i with | some w => (decide (w.op = .store) || decide (w.op = .line)) && !w.remote | none => false
/-- Vector atomics (R336). -/
def isAtomicWord (i : Instr) : Bool :=
  match memWordOf i with | some w => decide (w.op.kind = .atomic) && !w.remote | none => false
/-- Peer-scratchpad words (R334). -/
def isPeerWord (i : Instr) : Bool := match i with | .vldp _ | .vstp _ => true | _ => false

/-- The vector registers that a word other than a form writes: its VD, which for `vdqapply` and `vbpack` stands second among its
operands. -/
def Grp.writtenRanges (g : Grp) (i : Instr) : List (Nat × Nat) :=
  match i with
  | .vdqapply _ | .vbpack _ => ((g.operandRanges i).drop 1).take 1
  | .mxmovIn _ => []
  | i => if isStoreWord i then [] else (g.operandRanges i).take 1

/-- The bytes and registers that a word other than a form accesses once it has committed, as (space, place, bytes): no younger form
reads what older forms wrote over there (R245). -/
def touchesOf (s : State) (g : Grp) (e : VEntry) : List (Nat × Nat × Nat) :=
  let regs := (g.writtenRanges e.instr).map (fun q => (2, 4 * g.regWords * q.1, 4 * g.regWords * q.2))
  let spad (f : FM) : List (Nat × Nat × Nat) :=
    (g.spadOffsets f e.ops).map (fun p => (1, spadKey g.core p.2.toNat, FM.esize g f / 8))
  let peer (f : FM) : List (Nat × Nat × Nat) :=
    (g.accessed f.mreg.toNat).filterMap (fun i =>
      (peerKey s g (ofInt 32 (g.index f.vi.toNat i)) (FM.esize g f / 8)).map (fun p => (1, spadKey p.1 p.2, FM.esize g f / 8)))
  let mem := (e.probe.getD []).filterMap (fun a => match resolve s a.target with | .at pa => some (0, pa, a.size) | _ => none)
  match e.instr with
  | .vlds f => regs ++ spad f
  | .vsts f => spad f
  | .vldp f => regs ++ peer f
  | .vstp f => peer f
  | _ => regs ++ mem

/-- The group once the word at the head of its queue has committed, as far as forms are concerned (R245). -/
def Grp.touched (g : Grp) (s : State) (e : VEntry) : Grp :=
  if g.formPast = [] then g else (touchesOf s g e).foldl (fun g t => g.touch t.1 t.2.1 t.2.2) g

/-- A word of the group's own scratchpad. -/
def isSpadWord (i : Instr) : Bool := match i with | .vlds _ | .vsts _ => true | _ => false

/-- A `vlds` or `vsts` is performed at its commit (R333), once what it waits for is done. -/
def commitSpad (s : State) (tag : Nat) (g : Grp) (e : VEntry) : Option State :=
  let fl : Flight := { entry := e }
  let go (f : FM) (start : State → Nat → Grp → FM → Flight → State) : Option State :=
    if spadReady s tag g f e.id && !g.acquireOlder e.id then
      some (start s tag ({ g.touched s e with vq := g.vq.tail }.freeUndo) f fl)
    else none
  match e.instr with
  | .vlds f => go f startVlds
  | .vsts f => go f startVsts
  | _ => none

/-- THE COMMIT of the word at the head of a queue (R141): its checks have passed and its probe is made, or a trap is found. A
`setsr` acts here (R43); a copy or a collective is posted (R346, R402). Passes commit at their grant and forms at their last
element group. -/
def tryCommit (s : State) (tag : Nat) : Option State := do
  let g ← s.grp tag
  let e ← g.vq.head?
  if !g.headOpen e || (formOf e.instr).isSome then none
  else if probes e.instr then
    match passOf e.instr with
    | some p => if e.probe.isSome && !p.live g then some (s.setGrp tag (g.commitDone e)) else none
    | none => if e.probe.isNone || g.hazard e.instr then none else some (s.setGrp tag ((g.touched s e).commitHead e))
  else if isSpadWord e.instr && g.hazard e.instr then none
  else
    match g.exitTrap e with
    | some i => some (s.setGrp tag (g.trapHead i))
    | none =>
      if g.hazard e.instr then none
      else
        match e.instr with
        | .copy _ | .tcopy _ => postCopy s tag g e
        | .coll f => postColl s tag g e f
        | .setsr f =>
          if f.index = 4 && g.flagsPending e.id then none
          else some (s.setGrp tag ((effSetsr { g with vq := g.vq.tail } f e.ops).complete e).freeUndo)
        | .vlds _ | .vsts _ => commitSpad s tag g e
        | _ => some (s.setGrp tag ((g.touched s e).commitHead e))

/-- COMMIT (R141). -/
def execCommit (gtag : Nat) (s : State) : Result := eventResult s (tryCommit s gtag)

/-- The tile that a word of the accumulator store reads or writes (R268). -/
def tileOf : Instr → Option Nat
  | .mxext f | .mxmovIn f | .mxmovOut f | .mxclr f => some f.acc.toNat
  | _ => none

/-- A committed word starts on its unit (R133, R141); none where its unit or its accesses are not ready. -/
def startFlight (s : State) (tag : Nat) (g : Grp) (fl : Flight) : Option State :=
  let e := fl.entry
  let accesses (ready : Bool) (s : State) : Option State := if ready && !g.acquireOlder e.id then some s else none
  match e.instr with
  | .vldp f => accesses (spadReady s tag g f e.id) (startPeer s tag g f true fl)
  | .vstp f => accesses (spadReady s tag g f e.id) (startPeer s tag g f false fl)
  | .vprefetch _ => accesses (memoryAllowed s tag g) (s.setGrp tag (g.complete e))
  | .ldattAtt _ | .ldattRec _ =>
    (accesses (memoryAllowed s tag g && tableReady g fl) s).bind (fun s => s.ported g.core tableSectors (fun s =>
      some (s.setGrp tag (g.setFlight { fl with phase := .accesses }))))
  | i =>
    match memWordOf i, reductionOf i, vectorEffect g e.ops e.id i with
    | some w, _, _ =>
      if w.remote then accesses (memReady s tag g w.f fl && remoteReady s g fl) (startRemote s tag g w fl)
      else (accesses (memReady s tag g w.f fl) s).bind (fun s => s.ported g.core (wordTokens w fl) (fun s =>
        some (startWord s tag g w fl)))
    | none, some f, _ => some (startReduce s tag g f fl)
    | none, none, some h =>
      if (match tileOf i with | some t => g.tileBusy e.id t | none => false) then none else some (s.setGrp tag (h.complete e))
    | none, none, none => some (s.setGrp tag (g.complete e))

/-- The committed word of a group that waits for the vector unit. -/
def Grp.readyFlight (g : Grp) : Option Flight := g.flights.find? (fun f => f.phase = .ready)

/-- The groups of a core with a word that can start (R133). -/
def startable (s : State) (core : Nat) : List Grp :=
  (s.groupsOf core).filter (fun g =>
    match g.readyFlight with
    | some fl => (startFlight s g.tag g fl).isSome
    | none => false)

/-- Passed over at the vector issue for 256 cycles (R132, R133). -/
def Grp.issueStarving (s : State) (g : Grp) : Bool :=
  match g.unissuedSince with
  | some c => decide (c + 256 ≤ s.cycle)
  | none => false

/-- The group that the vector issue picks (R132, R133). -/
def chooseForIssue (s : State) (core : Nat) : Option Grp :=
  let l := startable s core
  match firstBy Grp.older (l.filter (fun g => g.issueStarving s)) with
  | some g => some g
  | none => firstBy Grp.before l

/-- The groups that the vector issue passes over begin to wait. -/
def noteUnissued (s : State) (core chosen : Nat) : State :=
  let ready := (startable s core).map Grp.tag
  { s with groups := s.groups.map (fun p =>
      if p.2.core ≠ core then p
      else if p.1 = chosen ∨ !ready.contains p.1 then (p.1, { p.2 with unissuedSince := none })
      else (p.1, { p.2 with unissuedSince := some (p.2.unissuedSince.getD s.cycle) })) }

/-- The vector unit of a core takes a ready word (R133). -/
def tryVectorIssue (s : State) (core : Nat) : Option State := do
  let g ← chooseForIssue s core
  let s := noteUnissued s core g.tag
  let g ← s.grp g.tag
  let fl ← g.readyFlight
  startFlight s g.tag g fl

/-- VECTOR_ISSUE (R133). -/
def execVectorIssue (core : Nat) (s : State) : Result := eventResult s (tryVectorIssue s core)

/-- The next thing that a committed word under way does. -/
def advanceFlight (s : State) (tag : Nat) (g : Grp) (fl : Flight) : Option State :=
  if fl.phase ≠ .accesses then none
  else
    match fl.entry.instr with
    | .vldp f => some (returnPeer s tag g f true fl)
    | .vstp f => some (returnPeer s tag g f false fl)
    | .ldattAtt _ | .ldattRec _ => finishTable s tag g fl
    | i => (memWordOf i).bind (fun w => advanceWord s tag g w fl)

/-- The first flight of a class that can go on, goes on. -/
def advanceFirst (s : State) (tag : Nat) (which : Instr → Bool) : Option State := do
  let g ← s.grp tag
  (g.flights.filter (fun f => which f.entry.instr)).findSome? (advanceFlight s tag g)

/-- LOAD_RETURN (R150). -/
def execLoadReturn (gtag : Nat) (s : State) : Result := eventResult s (advanceFirst s gtag isLoadWord)
/-- VECTOR_STORE_PERFORMED (R150). -/
def execVectorStorePerformed (gtag : Nat) (s : State) : Result := eventResult s (advanceFirst s gtag isStoreWord)
/-- PEER_SCRATCHPAD_RETURN (R334). -/
def execPeerScratchpadReturn (gtag : Nat) (s : State) : Result := eventResult s (advanceFirst s gtag isPeerWord)

/-- One element of a `gapply` whose group has committed (R236, R336). -/
def gapplyElement (s : State) (tag : Nat) : Option State := do
  let g ← s.grp tag
  let fl ← g.flights.find? (fun f => f.phase = .formWrites && (match f.entry.instr with | .gapply _ => true | _ => false))
  let a ← fl.todo.head?
  earlyWrite s tag g fl a.elem

/-- The scatter-add unit performs an atomic element (R336). -/
def tryAtomicPerform (s : State) (tag : Nat) : Option State :=
  match advanceFirst s tag isAtomicWord with
  | some s => some s
  | none => gapplyElement s tag

/-- ATOMIC_PERFORM (R336). -/
def execAtomicPerform (gtag : Nat) (s : State) : Result := eventResult s (tryAtomicPerform s gtag)

/-- One element of a peer word performed early: under AM = 11 none before a lower-numbered one (R329, R386). -/
def earlyPeer (s : State) (tag : Nat) (g : Grp) (f : FM) (load : Bool) (fl : Flight) (elem : Nat) : Option State := do
  let a ← fl.todo.find? (fun a => a.elem = elem)
  if f.am = 3 ∧ fl.todo.head? ≠ some a then none
  else
    let r := peerElement s g load fl a
    some (r.1.setGrp tag (g.setFlight r.2))

/-- One element of a flight performed early, by a turn of the agenda (log entry 1): the element's number, or for a table or the
operands of a pass its place among the pieces. -/
def tryAccess (s : State) (tag id elem : Nat) : Option State := do
  let g ← s.grp tag
  match g.flights.find? (fun f => f.entry.id = id) with
  | none => earlyPiece s tag id elem
  | some fl =>
    match fl.phase, fl.entry.instr with
    | .matrix, _ => earlyPiece s tag id elem
    | .formWrites, _ => earlyWrite s tag g fl elem
    | .accesses, .ldattAtt _ => earlyTable s tag g fl elem
    | .accesses, .ldattRec _ => earlyTable s tag g fl elem
    | .accesses, .vldp f => earlyPeer s tag g f true fl elem
    | .accesses, .vstp f => earlyPeer s tag g f false fl elem
    | .accesses, i => (memWordOf i).bind (fun w => earlyElement s tag g w fl elem)
    | _, _ => none

/-- A particular flight goes on, by a turn of the agenda (log entry 1). -/
def tryFlight (s : State) (tag id : Nat) : Option State := do
  let g ← s.grp tag
  let fl ← g.flights.find? (fun f => f.entry.id = id)
  advanceFlight s tag g fl

end Sys2Proof.Machine
end

