-- ==== Sys2Proof/Machine/Dispatch.lean ====
section
/-!
DEFINITION. One arm per row of the opcode table: each calls the meaning of that row.
-/
namespace Sys2Proof.Machine

/-- The effect of one instruction word of the group whose turn it is, or of one event. -/
def exec (i : Instr) (s : State) : Host.Outcome State Fault Refusal :=
  match i with
  | .add f => Sys2Proof.Machine.execAdd f s
  | .sub f => Sys2Proof.Machine.execSub f s
  | .mul f => Sys2Proof.Machine.execMul f s
  | .mulh f => Sys2Proof.Machine.execMulh f s
  | .div f => Sys2Proof.Machine.execDiv f s
  | .divu f => Sys2Proof.Machine.execDivu f s
  | .rem f => Sys2Proof.Machine.execRem f s
  | .remu f => Sys2Proof.Machine.execRemu f s
  | .and f => Sys2Proof.Machine.execAnd f s
  | .or f => Sys2Proof.Machine.execOr f s
  | .xor f => Sys2Proof.Machine.execXor f s
  | .sll f => Sys2Proof.Machine.execSll f s
  | .srl f => Sys2Proof.Machine.execSrl f s
  | .sra f => Sys2Proof.Machine.execSra f s
  | .slt f => Sys2Proof.Machine.execSlt f s
  | .sltu f => Sys2Proof.Machine.execSltu f s
  | .addImm f => Sys2Proof.Machine.execAddImm f s
  | .andImm f => Sys2Proof.Machine.execAndImm f s
  | .orImm f => Sys2Proof.Machine.execOrImm f s
  | .xorImm f => Sys2Proof.Machine.execXorImm f s
  | .sllImm f => Sys2Proof.Machine.execSllImm f s
  | .srlImm f => Sys2Proof.Machine.execSrlImm f s
  | .sraImm f => Sys2Proof.Machine.execSraImm f s
  | .sltImm f => Sys2Proof.Machine.execSltImm f s
  | .li f => Sys2Proof.Machine.execLi f s
  | .lhi f => Sys2Proof.Machine.execLhi f s
  | .clz f => Sys2Proof.Machine.execClz f s
  | .ctz f => Sys2Proof.Machine.execCtz f s
  | .popc f => Sys2Proof.Machine.execPopc f s
  | .bswap f => Sys2Proof.Machine.execBswap f s
  | .lea f => Sys2Proof.Machine.execLea f s
  | .leaImm f => Sys2Proof.Machine.execLeaImm f s
  | .pcaddr f => Sys2Proof.Machine.execPcaddr f s
  | .fadd f => Sys2Proof.Machine.execFadd f s
  | .fsub f => Sys2Proof.Machine.execFsub f s
  | .fmul f => Sys2Proof.Machine.execFmul f s
  | .fdiv f => Sys2Proof.Machine.execFdiv f s
  | .ffma f => Sys2Proof.Machine.execFfma f s
  | .fsqrt f => Sys2Proof.Machine.execFsqrt f s
  | .fmin f => Sys2Proof.Machine.execFmin f s
  | .fmax f => Sys2Proof.Machine.execFmax f s
  | .feq f => Sys2Proof.Machine.execFeq f s
  | .flt f => Sys2Proof.Machine.execFlt f s
  | .fle f => Sys2Proof.Machine.execFle f s
  | .fcvti f => Sys2Proof.Machine.execFcvti f s
  | .ficvt f => Sys2Proof.Machine.execFicvt f s
  | .fnarrow f => Sys2Proof.Machine.execFnarrow f s
  | .fwiden f => Sys2Proof.Machine.execFwiden f s
  | .vbcast f => Sys2Proof.Machine.execVbcast f s
  | .vins f => Sys2Proof.Machine.execVins f s
  | .mput f => Sys2Proof.Machine.execMput f s
  | .vget f => Sys2Proof.Machine.execVget f s
  | .mget f => Sys2Proof.Machine.execMget f s
  | .ldI8 f => Sys2Proof.Machine.execLdI8 f s
  | .ldI16 f => Sys2Proof.Machine.execLdI16 f s
  | .ldI32 f => Sys2Proof.Machine.execLdI32 f s
  | .ldI64 f => Sys2Proof.Machine.execLdI64 f s
  | .ldN8 f => Sys2Proof.Machine.execLdN8 f s
  | .ldN16 f => Sys2Proof.Machine.execLdN16 f s
  | .ldN32 f => Sys2Proof.Machine.execLdN32 f s
  | .stN8 f => Sys2Proof.Machine.execStN8 f s
  | .stN16 f => Sys2Proof.Machine.execStN16 f s
  | .stN32 f => Sys2Proof.Machine.execStN32 f s
  | .stN64 f => Sys2Proof.Machine.execStN64 f s
  | .lds f => Sys2Proof.Machine.execLds f s
  | .sts f => Sys2Proof.Machine.execSts f s
  | .aadd f => Sys2Proof.Machine.execAadd f s
  | .aand f => Sys2Proof.Machine.execAand f s
  | .aor f => Sys2Proof.Machine.execAor f s
  | .axor f => Sys2Proof.Machine.execAxor f s
  | .amin f => Sys2Proof.Machine.execAmin f s
  | .amax f => Sys2Proof.Machine.execAmax f s
  | .aswap f => Sys2Proof.Machine.execAswap f s
  | .cas f => Sys2Proof.Machine.execCas f s
  | .cflush f => Sys2Proof.Machine.execCflush f s
  | .cwb f => Sys2Proof.Machine.execCwb f s
  | .icinv f => Sys2Proof.Machine.execIcinv f s
  | .prefetch f => Sys2Proof.Machine.execPrefetch f s
  | .vadd f => Sys2Proof.Machine.execVadd f s
  | .vsub f => Sys2Proof.Machine.execVsub f s
  | .vmul f => Sys2Proof.Machine.execVmul f s
  | .vmin f => Sys2Proof.Machine.execVmin f s
  | .vmax f => Sys2Proof.Machine.execVmax f s
  | .vand f => Sys2Proof.Machine.execVand f s
  | .vor f => Sys2Proof.Machine.execVor f s
  | .vxor f => Sys2Proof.Machine.execVxor f s
  | .vnot f => Sys2Proof.Machine.execVnot f s
  | .vsll f => Sys2Proof.Machine.execVsll f s
  | .vsrl f => Sys2Proof.Machine.execVsrl f s
  | .vsra f => Sys2Proof.Machine.execVsra f s
  | .vaddVs f => Sys2Proof.Machine.execVaddVs f s
  | .vsubVs f => Sys2Proof.Machine.execVsubVs f s
  | .vmulVs f => Sys2Proof.Machine.execVmulVs f s
  | .vminVs f => Sys2Proof.Machine.execVminVs f s
  | .vmaxVs f => Sys2Proof.Machine.execVmaxVs f s
  | .vandVs f => Sys2Proof.Machine.execVandVs f s
  | .vorVs f => Sys2Proof.Machine.execVorVs f s
  | .vxorVs f => Sys2Proof.Machine.execVxorVs f s
  | .vsllVs f => Sys2Proof.Machine.execVsllVs f s
  | .vsrlVs f => Sys2Proof.Machine.execVsrlVs f s
  | .vsraVs f => Sys2Proof.Machine.execVsraVs f s
  | .vdiv f => Sys2Proof.Machine.execVdiv f s
  | .vsqrt f => Sys2Proof.Machine.execVsqrt f s
  | .vabs f => Sys2Proof.Machine.execVabs f s
  | .vneg f => Sys2Proof.Machine.execVneg f s
  | .vffma f => Sys2Proof.Machine.execVffma f s
  | .vffms f => Sys2Proof.Machine.execVffms f s
  | .vffnma f => Sys2Proof.Machine.execVffnma f s
  | .vffnms f => Sys2Proof.Machine.execVffnms f s
  | .vmulh f => Sys2Proof.Machine.execVmulh f s
  | .vabd f => Sys2Proof.Machine.execVabd f s
  | .vwadd f => Sys2Proof.Machine.execVwadd f s
  | .vwmul f => Sys2Proof.Machine.execVwmul f s
  | .vfexp2 f => Sys2Proof.Machine.execVfexp2 f s
  | .vflog2 f => Sys2Proof.Machine.execVflog2 f s
  | .vfrcp f => Sys2Proof.Machine.execVfrcp f s
  | .vfrsq f => Sys2Proof.Machine.execVfrsq f s
  | .vftanh f => Sys2Proof.Machine.execVftanh f s
  | .vdot4 f => Sys2Proof.Machine.execVdot4 f s
  | .vfdot2 f => Sys2Proof.Machine.execVfdot2 f s
  | .vfdot4 f => Sys2Proof.Machine.execVfdot4 f s
  | .vid f => Sys2Proof.Machine.execVid f s
  | .viota f => Sys2Proof.Machine.execViota f s
  | .vmerge f => Sys2Proof.Machine.execVmerge f s
  | .vmv f => Sys2Proof.Machine.execVmv f s
  | .vaddImm f => Sys2Proof.Machine.execVaddImm f s
  | .vandImm f => Sys2Proof.Machine.execVandImm f s
  | .vsllImm f => Sys2Proof.Machine.execVsllImm f s
  | .vsrlImm f => Sys2Proof.Machine.execVsrlImm f s
  | .vsraImm f => Sys2Proof.Machine.execVsraImm f s
  | .vclz f => Sys2Proof.Machine.execVclz f s
  | .vctz f => Sys2Proof.Machine.execVctz f s
  | .vpopc f => Sys2Proof.Machine.execVpopc f s
  | .vfsgnj f => Sys2Proof.Machine.execVfsgnj f s
  | .vfround f => Sys2Proof.Machine.execVfround f s
  | .vcvt f => Sys2Proof.Machine.execVcvt f s
  | .vwcvt f => Sys2Proof.Machine.execVwcvt f s
  | .vncvt f => Sys2Proof.Machine.execVncvt f s
  | .vqscale f => Sys2Proof.Machine.execVqscale f s
  | .vqapply f => Sys2Proof.Machine.execVqapply f s
  | .vdqapply f => Sys2Proof.Machine.execVdqapply f s
  | .vcmpeq f => Sys2Proof.Machine.execVcmpeq f s
  | .vcmpne f => Sys2Proof.Machine.execVcmpne f s
  | .vcmplt f => Sys2Proof.Machine.execVcmplt f s
  | .vcmple f => Sys2Proof.Machine.execVcmple f s
  | .vcmpun f => Sys2Proof.Machine.execVcmpun f s
  | .mand f => Sys2Proof.Machine.execMand f s
  | .mor f => Sys2Proof.Machine.execMor f s
  | .mxor f => Sys2Proof.Machine.execMxor f s
  | .mandn f => Sys2Proof.Machine.execMandn f s
  | .mnot f => Sys2Proof.Machine.execMnot f s
  | .msbf f => Sys2Proof.Machine.execMsbf f s
  | .msif f => Sys2Proof.Machine.execMsif f s
  | .msof f => Sys2Proof.Machine.execMsof f s
  | .mfirst f => Sys2Proof.Machine.execMfirst f s
  | .mpopc f => Sys2Proof.Machine.execMpopc f s
  | .vsetvl f => Sys2Proof.Machine.execVsetvl f s
  | .vbpack f => Sys2Proof.Machine.execVbpack f s
  | .vbunpack f => Sys2Proof.Machine.execVbunpack f s
  | .vfclass f => Sys2Proof.Machine.execVfclass f s
  | .vperm f => Sys2Proof.Machine.execVperm f s
  | .vrev f => Sys2Proof.Machine.execVrev f s
  | .vslideup f => Sys2Proof.Machine.execVslideup f s
  | .vslidedn f => Sys2Proof.Machine.execVslidedn f s
  | .vslide1up f => Sys2Proof.Machine.execVslide1up f s
  | .vslide1dn f => Sys2Proof.Machine.execVslide1dn f s
  | .vqx f => Sys2Proof.Machine.execVqx f s
  | .vqy f => Sys2Proof.Machine.execVqy f s
  | .vqd f => Sys2Proof.Machine.execVqd f s
  | .vqbc f => Sys2Proof.Machine.execVqbc f s
  | .vredsum f => Sys2Proof.Machine.execVredsum f s
  | .vredmin f => Sys2Proof.Machine.execVredmin f s
  | .vredmax f => Sys2Proof.Machine.execVredmax f s
  | .vredand f => Sys2Proof.Machine.execVredand f s
  | .vredor f => Sys2Proof.Machine.execVredor f s
  | .vredxor f => Sys2Proof.Machine.execVredxor f s
  | .vsegscanAdd f => Sys2Proof.Machine.execVsegscanAdd f s
  | .vsegscanMin f => Sys2Proof.Machine.execVsegscanMin f s
  | .vsegscanMax f => Sys2Proof.Machine.execVsegscanMax f s
  | .vsegredAdd f => Sys2Proof.Machine.execVsegredAdd f s
  | .vsegredMin f => Sys2Proof.Machine.execVsegredMin f s
  | .vsegredMax f => Sys2Proof.Machine.execVsegredMax f s
  | .vcompress f => Sys2Proof.Machine.execVcompress f s
  | .vexpand f => Sys2Proof.Machine.execVexpand f s
  | .vld f => Sys2Proof.Machine.execVld f s
  | .vst f => Sys2Proof.Machine.execVst f s
  | .vlds f => Sys2Proof.Machine.execVlds f s
  | .vsts f => Sys2Proof.Machine.execVsts f s
  | .vldp f => Sys2Proof.Machine.execVldp f s
  | .vstp f => Sys2Proof.Machine.execVstp f s
  | .vaadd f => Sys2Proof.Machine.execVaadd f s
  | .vafadd f => Sys2Proof.Machine.execVafadd f s
  | .vaand f => Sys2Proof.Machine.execVaand f s
  | .vaor f => Sys2Proof.Machine.execVaor f s
  | .vaxor f => Sys2Proof.Machine.execVaxor f s
  | .vamin f => Sys2Proof.Machine.execVamin f s
  | .vamax f => Sys2Proof.Machine.execVamax f s
  | .vaswap f => Sys2Proof.Machine.execVaswap f s
  | .vacas f => Sys2Proof.Machine.execVacas f s
  | .vprefetch f => Sys2Proof.Machine.execVprefetch f s
  | .vcflush f => Sys2Proof.Machine.execVcflush f s
  | .vcwb f => Sys2Proof.Machine.execVcwb f s
  | .rld f => Sys2Proof.Machine.execRld f s
  | .rst f => Sys2Proof.Machine.execRst f s
  | .raadd f => Sys2Proof.Machine.execRaadd f s
  | .rafadd f => Sys2Proof.Machine.execRafadd f s
  | .raor f => Sys2Proof.Machine.execRaor f s
  | .ramin f => Sys2Proof.Machine.execRamin f s
  | .ramax f => Sys2Proof.Machine.execRamax f s
  | .raswap f => Sys2Proof.Machine.execRaswap f s
  | .rcas f => Sys2Proof.Machine.execRcas f s
  | .map f => Sys2Proof.Machine.execMap f s
  | .zip f => Sys2Proof.Machine.execZip f s
  | .reduce f => Sys2Proof.Machine.execReduce f s
  | .scan f => Sys2Proof.Machine.execScan f s
  | .scanX f => Sys2Proof.Machine.execScanX f s
  | .stencil f => Sys2Proof.Machine.execStencil f s
  | .gapply f => Sys2Proof.Machine.execGapply f s
  | .mxmul f => Sys2Proof.Machine.execMxmul f s
  | .mxmulZ f => Sys2Proof.Machine.execMxmulZ f s
  | .mxbp f => Sys2Proof.Machine.execMxbp f s
  | .mxbpZ f => Sys2Proof.Machine.execMxbpZ f s
  | .mxext f => Sys2Proof.Machine.execMxext f s
  | .mxmovIn f => Sys2Proof.Machine.execMxmovIn f s
  | .mxmovOut f => Sys2Proof.Machine.execMxmovOut f s
  | .mxclr f => Sys2Proof.Machine.execMxclr f s
  | .vrank f => Sys2Proof.Machine.execVrank f s
  | .vrankMag f => Sys2Proof.Machine.execVrankMag f s
  | .vrkmerge f => Sys2Proof.Machine.execVrkmerge f s
  | .vrkpack f => Sys2Proof.Machine.execVrkpack f s
  | .rkacc f => Sys2Proof.Machine.execRkacc f s
  | .unrank f => Sys2Proof.Machine.execUnrank f s
  | .ldattAtt f => Sys2Proof.Machine.execLdattAtt f s
  | .ldattRec f => Sys2Proof.Machine.execLdattRec f s
  | .copy f => Sys2Proof.Machine.execCopy f s
  | .tcopy f => Sys2Proof.Machine.execTcopy f s
  | .coll f => Sys2Proof.Machine.execColl f s
  | .setsr f => Sys2Proof.Machine.execSetsr f s
  | .nop f => Sys2Proof.Machine.execNop f s
  | .br f => Sys2Proof.Machine.execBr f s
  | .call f => Sys2Proof.Machine.execCall f s
  | .jr f => Sys2Proof.Machine.execJr f s
  | .waitcLd f => Sys2Proof.Machine.execWaitcLd f s
  | .waitcSt f => Sys2Proof.Machine.execWaitcSt f s
  | .waitcSp f => Sys2Proof.Machine.execWaitcSp f s
  | .waitcCp f => Sys2Proof.Machine.execWaitcCp f s
  | .waitcMx f => Sys2Proof.Machine.execWaitcMx f s
  | .waitcFb f => Sys2Proof.Machine.execWaitcFb f s
  | .yield f => Sys2Proof.Machine.execYield f s
  | .endGroup f => Sys2Proof.Machine.execEndGroup f s
  | .vdrain f => Sys2Proof.Machine.execVdrain f s
  | .tierq f => Sys2Proof.Machine.execTierq f s
  | .launch f => Sys2Proof.Machine.execLaunch f s
  | .ctradd f => Sys2Proof.Machine.execCtradd f s
  | .ctrwait f => Sys2Proof.Machine.execCtrwait f s
  | .ctrset f => Sys2Proof.Machine.execCtrset f s
  | .pmigrate f => Sys2Proof.Machine.execPmigrate f s
  | .ckpt f => Sys2Proof.Machine.execCkpt f s
  | .fence f => Sys2Proof.Machine.execFence f s
  | .bar f => Sys2Proof.Machine.execBar f s
  | .gbar f => Sys2Proof.Machine.execGbar f s
  | .fbar f => Sys2Proof.Machine.execFbar f s
  | .mwait f => Sys2Proof.Machine.execMwait f s
  | .trap f => Sys2Proof.Machine.execTrap f s
  | .eret f => Sys2Proof.Machine.execEret f s
  | .getsr f => Sys2Proof.Machine.execGetsr f s
  | .getcap f => Sys2Proof.Machine.execGetcap f s
  | .moncfg f => Sys2Proof.Machine.execMoncfg f s
  | .monread f => Sys2Proof.Machine.execMonread f s
  | .lexport f => Sys2Proof.Machine.execLexport f s
  | .lmap f => Sys2Proof.Machine.execLmap f s
  | .lreclaim f => Sys2Proof.Machine.execLreclaim f s
  | .lack f => Sys2Proof.Machine.execLack f s
  | .ctxsave f => Sys2Proof.Machine.execCtxsave f s
  | .ctxload f => Sys2Proof.Machine.execCtxload f s
  | .scrub f => Sys2Proof.Machine.execScrub f s
  | .clauseFetch core => Sys2Proof.Machine.execClauseFetch core s
  | .fetchStarvation core => Sys2Proof.Machine.execFetchStarvation core s
  | .yieldExpire gtag => Sys2Proof.Machine.execYieldExpire gtag s
  | .vectorIssue core => Sys2Proof.Machine.execVectorIssue core s
  | .commit gtag => Sys2Proof.Machine.execCommit gtag s
  | .daybreakProbe gtag => Sys2Proof.Machine.execDaybreakProbe gtag s
  | .takeTrap gtag => Sys2Proof.Machine.execTakeTrap gtag s
  | .scalarLoadReturn gtag => Sys2Proof.Machine.execScalarLoadReturn gtag s
  | .loadReturn gtag => Sys2Proof.Machine.execLoadReturn gtag s
  | .storeBufferPerform gtag => Sys2Proof.Machine.execStoreBufferPerform gtag s
  | .atomicPerform gtag => Sys2Proof.Machine.execAtomicPerform gtag s
  | .reductionComplete gtag => Sys2Proof.Machine.execReductionComplete gtag s
  | .formCheck gtag => Sys2Proof.Machine.execFormCheck gtag s
  | .elementGroupProbe gtag => Sys2Proof.Machine.execElementGroupProbe gtag s
  | .elementGroupCommit gtag => Sys2Proof.Machine.execElementGroupCommit gtag s
  | .formComplete gtag => Sys2Proof.Machine.execFormComplete gtag s
  | .reservationEnter gtag => Sys2Proof.Machine.execReservationEnter gtag s
  | .tileFetch cluster => Sys2Proof.Machine.execTileFetch cluster s
  | .matrixGrant cluster => Sys2Proof.Machine.execMatrixGrant cluster s
  | .matrixPassEnd cluster => Sys2Proof.Machine.execMatrixPassEnd cluster s
  | .copyPostAccept core => Sys2Proof.Machine.execCopyPostAccept core s
  | .copyComplete core queue => Sys2Proof.Machine.execCopyComplete core queue s
  | .copyfault core queue bytes => Sys2Proof.Machine.execCopyfault core queue bytes s
  | .tcopyFire core => Sys2Proof.Machine.execTcopyFire core s
  | .ctrwaitReread gtag => Sys2Proof.Machine.execCtrwaitReread gtag s
  | .mwaitReread gtag => Sys2Proof.Machine.execMwaitReread gtag s
  | .barRelease launch scope unit number => Sys2Proof.Machine.execBarRelease launch scope unit number s
  | .gbarRelease launch => Sys2Proof.Machine.execGbarRelease launch s
  | .wptrWrite queue value => Sys2Proof.Machine.execWptrWrite queue value s
  | .qreset queue => Sys2Proof.Machine.execQreset queue s
  | .recordFetch queue => Sys2Proof.Machine.execRecordFetch queue s
  | .recordArrival queue => Sys2Proof.Machine.execRecordArrival queue s
  | .waitCounterReread queue => Sys2Proof.Machine.execWaitCounterReread queue s
  | .admission die => Sys2Proof.Machine.execAdmission die s
  | .taskPlace die => Sys2Proof.Machine.execTaskPlace die s
  | .priorityPromotion launch ordinal => Sys2Proof.Machine.execPriorityPromotion launch ordinal s
  | .groupHalt gtag => Sys2Proof.Machine.execGroupHalt gtag s
  | .saveComplete gtag => Sys2Proof.Machine.execSaveComplete gtag s
  | .taskRetire gtag => Sys2Proof.Machine.execTaskRetire gtag s
  | .scrubComplete target => Sys2Proof.Machine.execScrubComplete target s
  | .launchRetire launch => Sys2Proof.Machine.execLaunchRetire launch s
  | .pcoreWrite core value => Sys2Proof.Machine.execPcoreWrite core value s
  | .tlbInvalidate value => Sys2Proof.Machine.execTlbInvalidate value s
  | .invalidationComplete => Sys2Proof.Machine.execInvalidationComplete s
  | .atsTranslationResponse answer => Sys2Proof.Machine.execAtsTranslationResponse answer s
  | .pageRequestResponse answer => Sys2Proof.Machine.execPageRequestResponse answer s
  | .migrationUnitCopy record => Sys2Proof.Machine.execMigrationUnitCopy record s
  | .migrationStall record => Sys2Proof.Machine.execMigrationStall record s
  | .congestionPublish die occupancy => Sys2Proof.Machine.execCongestionPublish die occupancy s
  | .bucketRefill die => Sys2Proof.Machine.execBucketRefill die s
  | .flitSlotGrant port => Sys2Proof.Machine.execFlitSlotGrant port s
  | .reserveTokenRefill port => Sys2Proof.Machine.execReserveTokenRefill port s
  | .remoteRequest packet => Sys2Proof.Machine.execRemoteRequest packet s
  | .remoteResponse packet => Sys2Proof.Machine.execRemoteResponse packet s
  | .requestTimeout dest seq => Sys2Proof.Machine.execRequestTimeout dest seq s
  | .linkReplay port => Sys2Proof.Machine.execLinkReplay port s
  | .linkRetrain port rate => Sys2Proof.Machine.execLinkRetrain port rate s
  | .hostPostedWrite addr data => Sys2Proof.Machine.execHostPostedWrite addr data s
  | .grant msg => Sys2Proof.Machine.execGrant msg s
  | .granted msg => Sys2Proof.Machine.execGranted msg s
  | .refused msg => Sys2Proof.Machine.execRefused msg s
  | .lmapTimeout lease => Sys2Proof.Machine.execLmapTimeout lease s
  | .notice msg => Sys2Proof.Machine.execNotice msg s
  | .leaseReturn msg => Sys2Proof.Machine.execLeaseReturn msg s
  | .leaseDone msg => Sys2Proof.Machine.execLeaseDone msg s
  | .revoke msg => Sys2Proof.Machine.execRevoke msg s
  | .lenderDeadline lease => Sys2Proof.Machine.execLenderDeadline lease s
  | .borrowerDeadline lease => Sys2Proof.Machine.execBorrowerDeadline lease s
  | .checkpointData data => Sys2Proof.Machine.execCheckpointData data s
  | .ckptComplete => Sys2Proof.Machine.execCkptComplete s
  | .collSign die => Sys2Proof.Machine.execCollSign die s
  | .signature msg => Sys2Proof.Machine.execSignature msg s
  | .go msg => Sys2Proof.Machine.execGo msg s
  | .abort msg => Sys2Proof.Machine.execAbort msg s
  | .sent msg => Sys2Proof.Machine.execSent msg s
  | .collectiveDone msg => Sys2Proof.Machine.execCollectiveDone msg s
  | .coordinatorTimeout collid instNo => Sys2Proof.Machine.execCoordinatorTimeout collid instNo s
  | .collTransfer t => Sys2Proof.Machine.execCollTransfer t s
  | .switchCombine a b => Sys2Proof.Machine.execSwitchCombine a b s
  | .resume value => Sys2Proof.Machine.execResume value s
  | .terminate value => Sys2Proof.Machine.execTerminate value s
  | .fqridxWrite part value => Sys2Proof.Machine.execFqridxWrite part value s
  | .eqridxWrite part value => Sys2Proof.Machine.execEqridxWrite part value s
  | .eqovflRead part => Sys2Proof.Machine.execEqovflRead part s
  | .teardown value => Sys2Proof.Machine.execTeardown value s
  | .teardownDone => Sys2Proof.Machine.execTeardownDone s
  | .auditAppend kind data => Sys2Proof.Machine.execAuditAppend kind data s
  | .auditExport => Sys2Proof.Machine.execAuditExport s
  | .registerWrite bar offset value => Sys2Proof.Machine.execRegisterWrite bar offset value s
  | .deviceReset => Sys2Proof.Machine.execDeviceReset s
  | .measuredBoot image => Sys2Proof.Machine.execMeasuredBoot image s
  | .getVersion request => Sys2Proof.Machine.execGetVersion request s
  | .getCapabilities request => Sys2Proof.Machine.execGetCapabilities request s
  | .negotiateAlgorithms request => Sys2Proof.Machine.execNegotiateAlgorithms request s
  | .getDigests request => Sys2Proof.Machine.execGetDigests request s
  | .getCertificate request => Sys2Proof.Machine.execGetCertificate request s
  | .challenge request => Sys2Proof.Machine.execChallenge request s
  | .getMeasurements request => Sys2Proof.Machine.execGetMeasurements request s
  | .softError gtag structure_ => Sys2Proof.Machine.execSoftError gtag structure_ s
  | .eccCorrected die => Sys2Proof.Machine.execEccCorrected die s
  | .monitorSample die unit value => Sys2Proof.Machine.execMonitorSample die unit value s
  | .fuseWriteBackComplete cluster => Sys2Proof.Machine.execFuseWriteBackComplete cluster s
  | .fqbaseWrite part value => Sys2Proof.Machine.execFqbaseWrite part value s
  | .msiXUnmask vector => Sys2Proof.Machine.execMsiXUnmask vector s
  | .vectorStorePerformed gtag => Sys2Proof.Machine.execVectorStorePerformed gtag s
  | .peerScratchpadReturn gtag => Sys2Proof.Machine.execPeerScratchpadReturn gtag s

end Sys2Proof.Machine
end

