-- ==== Sys2Proof/Machine/Schedule.lean ====
section
/-!
DEFINITION. The machine's own order of turns when the agenda is empty (log entry 1): the first event of the machine that is
enabled, else the next group after the last that took a turn. What comes from outside (the host, a peer, an error, a monitor's
sample) happens by the agenda only.
-/
namespace Sys2Proof.Machine

/-- Events of a group: what its units have ready, then its queue. -/
def groupEvent (s : State) (tag : Nat) : Option State :=
  tryTakeTrap s tag <|> tryGroupHalt s tag <|> tryLoadReturn s tag <|> tryReductionComplete s tag
    <|> advanceFirst s tag isLoadWord <|> advanceFirst s tag isStoreWord <|> advanceFirst s tag isPeerWord
    <|> tryAtomicPerform s tag <|> advanceFirst s tag (fun _ => true) <|> tryStoreBuffer s tag
    <|> tryFormComplete s tag <|> tryElementGroupCommit s tag <|> tryElementGroupProbe s tag <|> tryFormCheck s tag
    <|> tryDaybreakProbe s tag <|> tryCommit s tag <|> tryReservationEnter s tag
    <|> trySaveComplete s tag <|> tryTaskRetire s tag <|> tryYieldExpire s tag

/-- Copy queues of a core. -/
abbrev copyQueueCount : Nat := 16

/-- Events of a core. -/
def coreEvent (s : State) (c : Nat) : Option State :=
  tryVectorIssue s c <|> tryCopyPostAccept s c <|> tryTcopyFire s c
    <|> (upTo copyQueueCount).findSome? (tryCopyComplete s c)
    <|> (upTo copyQueueCount).findSome? (fun q =>
      tryCopyfault s c q (((s.coreAt c).headCopy q).bind (fun j => j.read.map CopyDesc.total) |>.getD 0))
    <|> tryScrubComplete s c <|> tryClauseFetch s c

/-- Events of a cluster. -/
def clusterEvent (s : State) (c : Nat) : Option State :=
  let bars (scope unit : Nat) : Option State :=
    (s.barsOf scope unit).findSome? (fun b => tryBarRelease s b.launch scope unit b.number)
  tryMatrixPassEnd s c <|> tryMatrixGrant s c <|> tryTileFetch s c <|> tryFuseComplete s c
    <|> bars 2 c <|> (upTo 4).findSome? (fun k => bars 1 (4 * c + k))

/-- Events of the queues and launches. -/
def launchEvent (s : State) : Option State :=
  let queues := s.queues.map Prod.fst
  s.launches.findSome? (fun p => tryGbarRelease s p.1 <|> tryLaunchRetire s p.1)
    <|> (s.saved.findSome? (fun v => tryPromotion s v.launch v.ordinal))
    <|> (upTo Config.dies).findSome? (tryTaskPlace s) <|> (upTo Config.dies).findSome? (tryAdmission s)
    <|> (noQueue :: s.fetched.map Prod.fst).findSome? (fun q => tryValidate s q <|> tryWaitReread s q)
    <|> queues.findSome? (tryArrive s) <|> queues.findSome? (tryRecordFetch s)

/-- Events of memory's engines: migration, leases, the checkpoint, teardown, scrubs, the audit log. -/
def memoryEvent (s : State) : Option State :=
  tryInvalidationComplete s <|> s.finishReturn <|> (s.parts.map Prod.fst).findSome? (tryRing s)
    <|> s.migrations.findSome? (fun m =>
      tryMigrationUnitCopy s m.record <|> (if mustStall s m then tryMigrationStall s m.record else none))
    <|> s.leases.findSome? (fun e => tryLenderDeadline s e.number <|> tryBorrowerDeadline s e.number)
    <|> s.lmaps.findSome? (fun p => tryLmapTimeout s p.entry.number)
    <|> (s.parts.map Prod.fst).findSome? (fun p => tryScrubComplete s (scrubPart0 + p))
    <|> (tryTeardownDone s) <|> tryAuditExport s <|> tryCkptComplete s <|> drainUnits s (s.imageBytes / 256)

/-- A port has something to send. -/
def Port.busy (p : Port) : Bool := decide (p.vc0 ≠ []) || decide (p.vc1 ≠ []) || decide (p.vc2 ≠ [])

/-- Events of the fabric and the collective walkers. -/
def fabricEvent (s : State) : Option State :=
  let f := s.fabric
  let ports := f.ports.filterMap (fun p => if p.2.busy then some p.1 else none)
  f.local_.findSome? (deliverLocal s) <|> f.links.findSome? (deliverLink s) <|> f.serving.findSome? (fun v => serveNext s v none)
    <|> s.colls.findSome? (tryClose s) <|> (upTo Config.dies).findSome? (tryCollSign s) <|> s.colls.findSome? (emitNext s)
    <|> s.coords.findSome? (fun k => tryCoordinatorTimeout s k.collid k.inst.toNat)
    <|> ports.findSome? (fun k => tryReserveRefill s k <|> tryFlitSlot s k)
    <|> f.requests.findSome? (fun r => tryRequestTimeout s r.dst r.seq)

/-- Token refills that some port waits for. -/
def bandwidthEvent (s : State) : Option State :=
  ((s.cores.filter (fun c => c.2.asking)).map (fun c => dieOf c.1)).dedup.findSome? (tryBucketRefill s)

/-- The first machine event that is enabled, taken. -/
def machineEvent (s : State) : Option State :=
  let cores := (s.groups.map (fun p => p.2.core) ++ s.cores.map Prod.fst).dedup
  let clusters := (cores.map clusterOf ++ s.clusters.map Prod.fst).dedup
  (s.groups.map Prod.fst).findSome? (groupEvent s) <|> clusters.findSome? (clusterEvent s) <|> cores.findSome? (coreEvent s)
    <|> fabricEvent s <|> memoryEvent s <|> bandwidthEvent s <|> launchEvent s

/-- A turn of the agenda that is neither an event nor a group's: part of a longer action made on its own (log entry 1). One that
cannot be made leaves the state as it is. -/
def otherTurn (s : State) : Turn → State
  | .access g id e => (tryAccess s g id e).getD s
  | .flight g id => (tryFlight s g id).getD s
  | .formRead g e nth => (earlyRead s g e nth).getD s
  | .copyByte c nth b => (earlyCopy s c nth b).getD s
  | .copyRead c nth b => (earlyCopyRead s c nth b).getD s
  | .drain n => (drainUnits s n).getD s
  | .serve nth e => ((s.fabric.serving[nth]?).bind (fun v => serveNext s v (some e))).getD s
  | .emit nth => ((s.colls[nth]?).bind (emitNext s)).getD s
  | .member nth => ((s.fabric.local_[nth]?).bind (deliverLocal s)).getD s
  | .link nth => ((s.fabric.links[nth]?).bind (deliverLink s)).getD s
  | .lateLoads g on =>
    let l := s.sched.late.filter (fun x => x ≠ g)
    { s with sched := { s.sched with late := if on then g :: l else l } }
  | .load g id => (tryLoad s g id).getD s
  | .walkAhead p va => walkAhead s p va
  | .walkTake p pa => walkTake s p pa
  | .ring p => (tryRing s p).getD s
  | .takeDword c l pa code => takeDword s c l pa code
  | .event _ => s
  | .group _ => s

/-- The group can issue a word: it runs and holds a fetched clause (R132, R137). -/
def Grp.hasWord (g : Grp) : Bool := decide (g.run = .running) && decide (g.clause ≠ [])

/-- The next group with a word, after the group of the last turn, in rising order of tags and round. -/
def nextGroup (s : State) : Option Nat :=
  let ts := (s.groups.filter (fun p => p.2.hasWord)).map Prod.fst
  match ts.filter (fun t => s.sched.cur < t) with
  | t :: _ => some t
  | [] => ts.head?

/-- A group made for one word, where none is resident: full resources, f32 elements (log entry 15). -/
def sampleGroup : Grp :=
  { core := 0, slot := 0, launch := 0, ordinal := 0, part := 0, prio := 0, cls := 0, age := 0
    regWords := 64, declVl := 64, nreg := 32, nacc := 4, spad := 1, pc := 0x1000, hdr := 0x1000, vl := 64, vtail := 64
    vconf := 0x2020, drm := 1, m := [(0, BitVec.ofNat 2048 (2 ^ 64 - 1))] }

/-- `g` with a clause of one word at its program counter. -/
def Grp.withWord (g : Grp) (w : W64) : Grp :=
  { g with clause := [0x1000000000000000, w], pc := g.hdr + 8, run := .running, midClause := false }

end Sys2Proof.Machine
end

