-- ==== Sys2Proof/Machine/Step.lean ====
section
/-!
DEFINITION. One step of the device: the clock moves on, then one agent takes its turn (log entry 1).
-/
namespace Sys2Proof.Machine

/-- The turn of a group: the word at its program counter, decoded and executed (R137). A word that does not decode is
ILLEGAL (R67). -/
noncomputable def groupTurn (s : State) (tag : Nat) : Host.Outcome State Fault Refusal :=
  let s := { s with sched := { s.sched with cur := tag } }
  match s.grp tag with
  | none => .next s
  | some g =>
    match g.wordAt with
    | none => .next s
    | some w =>
      match decodeWord w with
      | .ok i => exec i s
      | .error r => .next (if g.run = .running then controlTrap s tag g (illegal r.reason) else s)

/-- One step: a turn of the agenda, else a machine event that is enabled, else the next group's word. -/
noncomputable def step (s : State) : Host.Outcome State Fault Refusal :=
  let s := s.tick
  match s.sched.agenda with
  | .event i :: rest =>
    let s := { s with sched := { s.sched with agenda := rest } }
    if i.encode.isSome then .next s else exec i s
  | .group t :: rest => groupTurn { s with sched := { s.sched with agenda := rest } } t
  | t :: rest => .next (otherTurn { s with sched := { s.sched with agenda := rest } } t)
  | [] =>
    match machineEvent s with
    | some s => .next s
    | none =>
      match nextGroup s with
      | some t => groupTurn s t
      | none => .next s

/-- `s` with the word `w` as the next word of the group whose turn it is (of a group made for it, where none is resident),
and that group's turn next. -/
def State.withFetchWord (s : State) (_nbits w : Nat) : State :=
  let g := ((s.grp s.sched.cur).getD sampleGroup).withWord (BitVec.ofNat 64 w)
  { s.setGrp s.sched.cur g with sched := { s.sched with agenda := [.group s.sched.cur] } }

end Sys2Proof.Machine
end

