-- ==== Sys2Proof/Safety.lean ====
section
/-!
DEFINITION. What the statements speak of: the forms that the state keeps, a group at its turn, what an instruction leaves
unchanged.
-/
namespace Sys2Proof.Safety

open Machine

/-- The memories of the state are in their canonical form. -/
def MemoryForm (s : State) : Prop :=
  Memory.wf s.mem = true ∧ Memory.wf s.spad = true ∧ Memory.wf s.root.sram = true

/-- The group whose turn it is runs. -/
def AtTurn (s : State) (g : Grp) : Prop := s.grp s.sched.cur = some g ∧ g.run = .running

/-- The word passes the decode checks for this group: its level, its fields, the registers it names (R2, R35, R67). -/
def Passes (g : Grp) (i : Instr) (level : Level := .user) (concurrent : Bool := false) : Prop :=
  g.wordTrap i.check level concurrent = none

/-- Nothing holds the control thread back (R142), and none of these registers waits for a value (R147). -/
def Free (g : Grp) (rs : List (BitVec 6)) : Prop := g.blocked = false ∧ g.anyPending rs = false

/-- The undo log has room for `k` entries (R143). -/
def Room (g : Grp) (k : Nat) : Prop := g.undo.length + k ≤ Config.undoDepth

/-- A control-side word issues: its turn has come, it passes its checks, its registers are at hand and the undo log has room
for what it logs. -/
def Issues (s : State) (g : Grp) (i : Instr) (rs : List (BitVec 6)) (k : Nat := 0) (level : Level := .user)
    (concurrent : Bool := false) : Prop :=
  AtTurn s g ∧ Passes g i level concurrent ∧ Free g rs ∧ Room g k

/-- `g'` is `g` at the next word, with nothing else changed but the scalar registers and the undo log. -/
def NextWord (g g' : Grp) : Prop :=
  { g' with s := g.s, undo := g.undo, pc := g.pc, hdr := g.hdr, clause := g.clause, midClause := g.midClause,
            nextId := g.nextId } = g
    ∧ g'.pc = g.pc + 8 ∧ g'.nextId = g.nextId + 1

/-- `g'` is `g` at the next word with `x` in register `d`, which s0 discards; no other register changes (R34). -/
def SetsReg (g g' : Grp) (d : BitVec 6) (x : W64) : Prop :=
  g'.reg d.toNat = (if d = 0 then 0 else x) ∧ ∀ r, r ≠ d.toNat → g'.reg r = g.reg r

/-- The word `i` writes `value` to `sd`, and changes nothing else of its group and nothing of the rest of the machine. -/
def Computes (i : Instr) (reads : List (BitVec 6)) (sd : BitVec 6) (value : Grp → W64) : Prop :=
  ∀ s g, Issues s g i (reads ++ [sd]) 1 →
    ∃ g', exec i s = .next (s.setGrp s.sched.cur g') ∧ SetsReg g g' sd (value g) ∧ NextWord g g'

/-- `g` at the clause whose header is at `a` (R165). -/
def AtClause (g : Grp) (a : W64) : Grp :=
  { g with pc := a, hdr := a, clause := [], midClause := false, nextId := g.nextId + 1 }

/-- Every older instruction has committed, and no acquire is under way: a word that waits for the vector queue may issue
(R142, R384). -/
def Drained (g : Grp) : Prop := g.vq = [] ∧ g.acquiring = false

/-- `g'` is `g` at the next word, but for what a release or an acquire does to what older forms wrote over (R245). -/
def NextOrdered (g g' : Grp) : Prop := NextWord g { g' with formPast := g.formPast }

/-- A precise trap at the word of `g` (R146): taken at once where every older instruction has committed. -/
def TrapsAt (i : Instr) (s : State) (g : Grp) (info : TrapInfo) : Prop :=
  exec i s = .next (if g.vq = [] then takeTrap s s.sched.cur info g.pc g.hdr else s)

/-- The word `i` ends with the number `x` in `sd`, its group going on to the next word in the state `base`. -/
def Answers (i : Instr) (s : State) (g : Grp) (sd : BitVec 6) (base : State) (x : Nat) : Prop :=
  ∃ g', exec i s = .next (base.setGrp s.sched.cur g') ∧ SetsReg g g' sd (BitVec.ofNat 64 x) ∧ NextWord g g'

/-- A group that has its core to itself, with nothing of it under way: no older instruction, load or store, room in its
counters and flags. -/
def Alone (s : State) (g : Grp) : Prop :=
  AtTurn s g ∧ g.tag = s.sched.cur ∧ Assoc.wf s.groups = true ∧ s.groupsOf g.core = [g]
    ∧ g.vq = [] ∧ g.flights = [] ∧ g.form = none ∧ g.loads = [] ∧ g.stores = [] ∧ g.undo = []
    ∧ g.readAhead = []
    ∧ (∀ k, g.flag k < 63) ∧ (∀ p, g.counter p < 65535) ∧ g.counter .ld + g.counter .st < 32

/-- The group but for its place, its queue and flights, its counters and flags, and what older forms wrote over (R245). -/
def Bare (g : Grp) : Grp :=
  { g with pc := 0, hdr := 0, clause := [], midClause := false, nextId := 0, vq := [], flights := [], counted := [], flags := []
           cps := 0, unissuedSince := none, formPast := [] }

/-- What a vector-side word leaves: its group as `h` at the next word, its flags lowered again; no other group is changed, and
nothing else of the machine: no byte of memory or scratchpad, no core, die, launch, root register or fabric. -/
def Leaves (s t : State) (g h : Grp) : Prop :=
  ({ t with groups := s.groups } : State) = s ∧ (∀ u, u ≠ s.sched.cur → t.grp u = s.grp u)
    ∧ ∃ gt, t.grp s.sched.cur = some gt ∧ Bare gt = Bare h ∧ gt.pc = g.pc + 8 ∧ gt.nextId = g.nextId + 1 ∧ gt.vq = []
      ∧ gt.flights = [] ∧ ∀ k, gt.flag k = g.flag k

/-- The word `i` enters the queue, commits and runs on the vector unit, and its group is `h` then (R139-R141, R201). -/
def VectorRun (i : Instr) (h : Grp → Grp) : Prop :=
  ∀ s g, Alone s g → Passes g i → g.exitTrap (g.entryOf i {}) = none →
    ∃ s1 s2 t, exec i s = .next s1 ∧ exec (.commit s.sched.cur) s1 = .next s2 ∧ exec (.vectorIssue g.core) s2 = .next t
      ∧ Leaves s t g (h g)

/-- The word `i` takes an entry of the vector queue (R140) with the values of the registers `rs`, raising a counter and the flags
of its CF; the control thread goes on, and nothing else changes but who may issue under the cap of R136. -/
def Enqueues (i : Instr) (rs : List (BitVec 6)) (path : Option Path) (cf : BitVec 2) (memory : Bool := false) : Prop :=
  ∀ s g, AtTurn s g → Passes g i → Free g rs → g.vqUsed < 64 → (memory = true → memoryAllowed s s.sched.cur g = true) →
    (∀ p, path = some p → g.counter p < 65535) → (∀ k ∈ cfFlags g.header cf.toNat, g.flag k < 63) →
    ∃ t g' e, exec i s = .next t ∧ t.grp s.sched.cur = some g' ∧ { t with groups := s.groups, cores := s.cores } = s
      ∧ (∀ u, u ≠ s.sched.cur → t.grp u = s.grp u)
      ∧ g'.vq = g.vq ++ [e] ∧ e.instr = i ∧ e.ops = rs.map (fun r => g.reg r.toNat) ∧ e.id = g.nextId ∧ e.pc = g.pc
      ∧ e.hdr = g.hdr ∧ e.probe = none ∧ e.trap = none ∧ e.inner = none ∧ g'.pc = g.pc + 8 ∧ g'.nextId = g.nextId + 1
      ∧ (∀ p, g'.counter p = g.counter p + if path = some p then 1 else 0)
      ∧ (∀ k, g'.flag k = g.flag k + (cfFlags g.header cf.toNat).count k)
      ∧ g'.flights = g.flights ∧ Bare g' = Bare g

/-- A committed word of a group that has its core to itself waits for the vector unit (R133). -/
def OnUnit (s : State) (tag : Nat) (g : Grp) (fl : Flight) : Prop :=
  Assoc.wf s.groups = true ∧ s.grp tag = some g ∧ g.tag = tag ∧ s.groupsOf g.core = [g] ∧ g.readyFlight = some fl
    ∧ g.acquireOlder fl.entry.id = false

/-- The one word of a group that is under way, with nothing asked of a lender. -/
def UnderWay (s : State) (tag : Nat) (g : Grp) (fl : Flight) : Prop :=
  s.grp tag = some g ∧ g.flights = [fl] ∧ fl.phase = .accesses ∧ fl.waits = [] ∧ fl.failed = []

/-- The device physical address of an access that lies in this device's memory. -/
def physOf (a : Access) : Nat := match a.target with | .phys pa => pa | _ => 0

end Sys2Proof.Safety
end

