-- ==== Sys2Proof/Certificates/Slice0/Obligations.lean ====
section
/-!
DEFINITION. The statements for the provers.
-/
open Sys2Proof Sys2Proof.Machine Sys2Proof.Safety

/-! Encoding, steps and reset. -/

/-- THE ENCODING AND THE DECODER AGREE (R50, R64, R65): a word decodes to an instruction exactly where it is the word of
that instruction, every operand at every value; so each word has one meaning, and no bit of an encoding is dropped. -/
def Obligations.EncodingRoundTrip : Prop :=
  ∀ (i : Instr) (w : W64), i.encode = some w ↔ decodeWord w = .ok i

/-- Words that the manual writes out, and words put together from its formats (R50, R156, R160, R165, R168, R433, R434). -/
def Obligations.WordsOfTheManual : Prop :=
  decodeWord 0x0200C303FFFFC000 = .ok (.addImm { sd := 3, sa := 3, sb := 0, imm := 0xFFFFF, ext := 0, cf := 0 })
    ∧ decodeWord 0x3000C02000000004 = .ok (.br { sa := 3, sb := 0, cond := 2, off := 0, hint := 1, cf := 0 })
    ∧ decodeWord 0x1600000000000000 = .ok (.nop { zero := 0, cf := 0 })
    ∧ decodeWord 0x3A00000000000000 = .ok (.endGroup { zero := 0, cf := 0 })
    ∧ decodeWord 0xE200000000000000 = .ok (.eret { zero := 0, cf := 0 })

/-- No word stops the machine: whatever the state, an instruction or event has a next state. -/
def Obligations.ExecNext : Prop :=
  ∀ (i : Instr) (s : State), ∃ t, exec i s = .next t

/-- A turn of a group runs the instruction that its word decodes to, on the state whose clock has moved on; so does the
machine's own choice of a group where no event is enabled (the schedule is the model's, log entry 1). A turn of an event
runs the event (log entry 1). The word of a running group that decodes to no instruction takes an ILLEGAL trap at the word
once every older instruction has committed, and waits till then (R67, R68): reason 1 for an opcode without a row, reason 2
for a function value without one. -/
def Obligations.StepRunsTheTurn : Prop :=
  (∀ (s : State) (t : Nat) (g : Grp) (w : W64) (i : Instr), s.grp t = some g → g.wordAt = some w → decodeWord w = .ok i →
    (∀ rest, s.sched.agenda = .group t :: rest →
      step s = exec i { s.tick with sched := { s.sched with agenda := rest, cur := t } })
    ∧ (s.sched.agenda = [] → machineEvent s.tick = none → nextGroup s.tick = some t →
      step s = exec i { s.tick with sched := { s.sched with cur := t } }))
  ∧ (∀ (s : State) (i : Instr) (rest : List Turn), i.encode = none → s.sched.agenda = .event i :: rest →
    step s = exec i { s.tick with sched := { s.sched with agenda := rest } })
  ∧ (∀ (s : State) (g : Grp) (w : W64), AtTurn s g → g.wordAt = some w →
    (∀ r, decodeWord w = .error r →
      groupTurn s s.sched.cur = .next
        (if g.vq = [] then takeTrap s s.sched.cur { cause := 0x01, detail := r.reason } g.pc g.hdr else s))
    ∧ (opcodeRow w (w.toNat / 2 ^ 57) = [] → ∃ r, decodeWord w = .error r ∧ r.reason = 1)
    ∧ (opcodeRow w (w.toNat / 2 ^ 57) ≠ [] → (opcodeRow w (w.toNat / 2 ^ 57)).length ≤ w.toNat / 2 ^ 52 % 32 →
      ∃ r, decodeWord w = .error r ∧ r.reason = 2))

/-! Scalar integer words. -/

/-- The scalar integer and address words (R155, R156): each writes its result to sd, s0 discarding it, and nothing else of
the machine changes but the place and the undo log; an immediate shift with IMM20 outside 0-63 is ILLEGAL with reason 4. -/
def Obligations.ScalarIntegerWords : Prop :=
  (∀ f : FS,
    let word (i : Instr) (op : W64 → W64 → W64) : Prop :=
      Computes i [f.sa, f.sb] f.sd (fun g => op (g.reg f.sa.toNat) (g.reg f.sb.toNat))
    word (.add f) (fun x y => x + y)
    ∧ word (.sub f) (fun x y => x - y)
    ∧ word (.mul f) (fun x y => BitVec.ofInt 64 (x.toInt * y.toInt))
    ∧ word (.mulh f) (fun x y => BitVec.ofInt 64 (x.toInt * y.toInt / 2 ^ 64))
    ∧ word (.div f) (fun x y => if y = 0 then 0xFFFFFFFFFFFFFFFF else BitVec.ofInt 64 (x.toInt.tdiv y.toInt))
    ∧ word (.divu f) (fun x y => if y = 0 then 0xFFFFFFFFFFFFFFFF else BitVec.ofNat 64 (x.toNat / y.toNat))
    ∧ word (.rem f) (fun x y => if y = 0 then x else BitVec.ofInt 64 (x.toInt - y.toInt * x.toInt.tdiv y.toInt))
    ∧ word (.remu f) (fun x y => if y = 0 then x else BitVec.ofNat 64 (x.toNat % y.toNat))
    ∧ word (.and f) (fun x y => x &&& y)
    ∧ word (.or f) (fun x y => x ||| y)
    ∧ word (.xor f) (fun x y => x ^^^ y)
    ∧ word (.sll f) (fun x y => BitVec.ofNat 64 (x.toNat * 2 ^ (y.toNat % 64)))
    ∧ word (.srl f) (fun x y => BitVec.ofNat 64 (x.toNat / 2 ^ (y.toNat % 64)))
    ∧ word (.sra f) (fun x y => BitVec.ofInt 64 (x.toInt / 2 ^ (y.toNat % 64)))
    ∧ word (.slt f) (fun x y => if x.toInt < y.toInt then 1 else 0)
    ∧ word (.sltu f) (fun x y => if x.toNat < y.toNat then 1 else 0))
  ∧ (∀ f : FS,
    let word (i : Instr) (op : W64 → W64 → W64) : Prop :=
      Computes i [f.sa] f.sd (fun g => op (g.reg f.sa.toNat) (BitVec.ofInt 64 f.imm.toInt))
    word (.addImm f) (fun x y => x + y)
    ∧ word (.andImm f) (fun x y => x &&& y)
    ∧ word (.orImm f) (fun x y => x ||| y)
    ∧ word (.xorImm f) (fun x y => x ^^^ y)
    ∧ word (.sllImm f) (fun x y => BitVec.ofNat 64 (x.toNat * 2 ^ (y.toNat % 64)))
    ∧ word (.srlImm f) (fun x y => BitVec.ofNat 64 (x.toNat / 2 ^ (y.toNat % 64)))
    ∧ word (.sraImm f) (fun x y => BitVec.ofInt 64 (x.toInt / 2 ^ (y.toNat % 64)))
    ∧ word (.sltImm f) (fun x y => if x.toInt < y.toInt then 1 else 0))
  ∧ ((∀ f : FI, Computes (.li f) [] f.sd (fun _ => BitVec.ofInt 64 f.imm.toInt)
    ∧ Computes (.lhi f) [f.sa] f.sd (fun g => BitVec.ofNat 64 (f.imm.toNat * 2 ^ 32 + (g.reg f.sa.toNat).toNat % 2 ^ 32))
    ∧ Computes (.pcaddr f) [] f.sd (fun g => g.hdr + BitVec.ofInt 64 (8 * f.imm.toInt)))
  ∧ ∀ f : FS,
    Computes (.lea f) [f.sa, f.sb] f.sd (fun g =>
      g.reg f.sa.toNat + BitVec.ofNat 64 ((g.reg f.sb.toNat).toNat * 2 ^ (f.ext.toNat % 4)) + BitVec.ofInt 64 f.imm.toInt)
    ∧ Computes (.leaImm f) [f.sa] f.sd (fun g => g.reg f.sa.toNat + BitVec.ofInt 64 (f.imm.toInt * 2 ^ (f.ext.toNat % 4)))
    ∧ (∃ n : W64 → Nat, Computes (.clz f) [f.sa] f.sd (fun g => BitVec.ofNat 64 (n (g.reg f.sa.toNat)))
      ∧ ∀ x, n x ≤ 64 ∧ (∀ k, 64 - n x ≤ k → x.getLsbD k = false) ∧ (n x < 64 → x.getLsbD (63 - n x) = true))
    ∧ (∃ n : W64 → Nat, Computes (.ctz f) [f.sa] f.sd (fun g => BitVec.ofNat 64 (n (g.reg f.sa.toNat)))
      ∧ ∀ x, n x ≤ 64 ∧ (∀ k, k < n x → x.getLsbD k = false) ∧ (n x < 64 → x.getLsbD (n x) = true))
    ∧ Computes (.popc f) [f.sa] f.sd (fun g =>
      BitVec.ofNat 64 ((List.range 64).countP (fun k => (g.reg f.sa.toNat).getLsbD k)))
    ∧ (∃ r : W64 → W64, Computes (.bswap f) [f.sa] f.sd (fun g => r (g.reg f.sa.toNat))
      ∧ ∀ x k, k < 8 → (r x).extractLsb' (8 * k) 8 = x.extractLsb' (8 * (7 - k)) 8))
  ∧ ∀ (f : FS) s g, AtTurn s g → f.sb = 0 → f.ext = 0 → 64 ≤ f.imm.toNat →
    ∀ i ∈ [Instr.sllImm f, .srlImm f, .sraImm f], TrapsAt i s g (illegal 4)

/-- s0 reads as zero, and a write to it is discarded (R34). -/
def Obligations.RegisterZero : Prop :=
  ∀ (g : Grp) (x : W64), g.reg 0 = 0 ∧ g.setReg 0 x = g ∧ g.writeReg 0 x = g

/-! Scalar floating point, and words that only advance. -/

/-- The scalar floating-point words (R157-R159): the value, zero-extended, and the XFLAGS bits that the operation on the
type's values gives under the rounding mode of the word, RM 000 taking the control thread's DRM. -/
def Obligations.ScalarFloatWords : Prop :=
  ∀ f : FS,
    let t := f.ty
    let low (x : Nat) : Nat := x % 2 ^ typeWidth t
    let val (x : Nat) : FVal := readFloat t (low x)
    let word (i : Instr) (reads : List (BitVec 6)) (op : Nat → Nat → Nat → Nat → Nat × Nat) : Prop :=
      ∀ s g, Issues s g i (reads ++ [f.sd]) 2 →
        ∃ g', exec i s = .next (s.setGrp s.sched.cur g')
          ∧ let r := op (if f.rm = 0 then g.drm else f.rm) (g.reg f.sa.toNat).toNat (g.reg f.sb.toNat).toNat
              (g.reg f.sd.toNat).toNat
            SetsReg g g' f.sd (BitVec.ofNat 64 r.1) ∧ g'.xflagsNow = Nat.lor g.xflagsNow r.2
              ∧ NextWord g { g' with xflags := g.xflags }
    word (.fadd f) [f.sa, f.sb] (fun rm a b _ => floatAdd t rm (val a) (val b))
    ∧ word (.fsub f) [f.sa, f.sb] (fun rm a b _ => floatSub t rm (val a) (val b))
    ∧ word (.fmul f) [f.sa, f.sb] (fun rm a b _ => floatMul t rm (val a) (val b))
    ∧ word (.fdiv f) [f.sa, f.sb] (fun rm a b _ => floatDiv t rm (val a) (val b))
    ∧ word (.ffma f) [f.sa, f.sb, f.sd] (fun rm a b d => floatFma t rm (val a) (val b) (val d))
    ∧ word (.fsqrt f) [f.sa] (fun rm a _ _ => floatSqrt t rm (val a))
    ∧ word (.fmin f) [f.sa, f.sb] (fun _ a b _ => floatMinMax t false (low a) (low b))
    ∧ word (.fmax f) [f.sa, f.sb] (fun _ a b _ => floatMinMax t true (low a) (low b))
    ∧ word (.feq f) [f.sa, f.sb] (fun _ a b _ => (bit (valueEq (val a) (val b)), nvSig (val a) (val b)))
    ∧ word (.flt f) [f.sa, f.sb] (fun _ a b _ => (bit (valueLt (val a) (val b)), nvAny (val a) (val b)))
    ∧ word (.fle f) [f.sa, f.sb] (fun _ a b _ =>
      (bit (valueLt (val a) (val b) || valueEq (val a) (val b)), nvAny (val a) (val b)))
    ∧ word (.fcvti f) [f.sa] (fun rm a _ _ =>
      let r := floatToInt rm (-(2 ^ 63)) (2 ^ 63 - 1) (val a)
      ((r.1 % 2 ^ 64).toNat, r.2))
    ∧ word (.ficvt f) [f.sa] (fun rm a _ _ => intToFloat t rm false (BitVec.ofNat 64 a).toInt)
    ∧ word (.fnarrow f) [f.sa] (fun rm a _ _ => narrowFloat t rm f.sat (readFloat 8 (a % 2 ^ 32)))
    ∧ word (.fwiden f) [f.sa] (fun _ a _ _ => widenFloat 8 t (low a))

/-- Rounding keeps a value that the type has: a finite pattern of f32, f16 or bf16 is the result of rounding its own value
in every mode, with no flag (R159: each result is rounded once). A NaN operand gives the type's quiet NaN, with NV for a
signalling one (R159). -/
def Obligations.FloatRounding : Prop :=
  (∀ (t p rm : Nat) (sat : Bool), t ∈ [8, 9, 10] → p < 2 ^ typeWidth t → 1 ≤ rm → rm ≤ 5 →
    (∃ neg m e, readFloat t p = .fin neg m e) → narrowFloat t rm sat (readFloat t p) = (p, 0))
  ∧ (∀ (t rm : Nat) (a b : FVal), t ∈ [8, 9, 10] → (a.isNan = true ∨ b.isNan = true) →
    let nan := if t = 8 then 0x7FC00000 else if t = 9 then 0x7E00 else 0x7FC0
    ∀ op ∈ [floatAdd t rm, floatSub t rm, floatMul t rm, floatDiv t rm],
      op a b = (nan, if a.sig || b.sig then flNV else 0))

/-- `nop` and `prefetch` change nothing but the place (R160, R164). -/
def Obligations.WordsWithoutEffect : Prop :=
  decodeWord 0x1600000000000000 = .ok (.nop { zero := 0, cf := 0 })
  ∧ (∀ f s g, Issues s g (.nop f) [] → exec (.nop f) s = .next (s.setGrp s.sched.cur g.advance) ∧ NextWord g g.advance)
  ∧ ∀ f s g, Issues s g (.prefetch f) [f.sa] →
    exec (.prefetch f) s = .next (s.setGrp s.sched.cur g.advance) ∧ NextWord g g.advance

/-! Control transfer, waits and the end of a group. -/

/-- `br` (R165): taken, the clause at H + 8·sign_extend(off32) follows; not taken, the next clause. Nothing else changes.
`call` (R166): s[sa] holds the address of the next clause, H + 8·(LEN + 1), and the clause at the target follows. `jr`
(R167): the clause at s[sa] + 8·sign_extend(imm20) follows; a target that is no multiple of 8 takes ALIGN at the word. -/
def Obligations.ControlTransfer : Prop :=
  (∀ f s g, Issues s g (.br f) [f.sa, f.sb] →
    let x := g.reg f.sa.toNat
    let y := g.reg f.sb.toNat
    let taken : Prop := f.cond = 0 ∨ (f.cond = 1 ∧ x = y) ∨ (f.cond = 2 ∧ x ≠ y) ∨ (f.cond = 3 ∧ x.toInt < y.toInt)
      ∨ (f.cond = 4 ∧ y.toInt ≤ x.toInt) ∨ (f.cond = 5 ∧ x.toNat < y.toNat) ∨ (f.cond = 6 ∧ y.toNat ≤ x.toNat)
    (taken → exec (.br f) s = .next (s.setGrp s.sched.cur (AtClause g (g.hdr + BitVec.ofInt 64 (8 * f.off.toInt)))))
    ∧ (¬taken → 0 < g.clause.length → g.clause.length ≤ 16 → g.pc = g.hdr + BitVec.ofNat 64 (8 * (g.clause.length - 1)) →
      exec (.br f) s = .next (s.setGrp s.sched.cur (AtClause g (g.hdr + BitVec.ofNat 64 (8 * g.clause.length))))))
  ∧ (∀ f s g, Issues s g (.call f) [f.sa] 1 →
    ∃ g', exec (.call f) s = .next (s.setGrp s.sched.cur g')
      ∧ SetsReg g g' f.sa (g.hdr + BitVec.ofNat 64 (8 * g.clause.length))
      ∧ { g' with s := g.s, undo := g.undo } = AtClause g (g.hdr + BitVec.ofInt 64 (8 * f.off.toInt)))
  ∧ (∀ f s g, Issues s g (.jr f) [f.sa] →
    let t := g.reg f.sa.toNat + BitVec.ofInt 64 (8 * f.imm.toInt)
    (t.toNat % 8 = 0 → exec (.jr f) s = .next (s.setGrp s.sched.cur (AtClause g t)))
    ∧ (t.toNat % 8 ≠ 0 → TrapsAt (.jr f) s g { cause := 0x04, addr := t }))

/-- `waitc` (R152): it completes once the counter of its path is at or below s[sa], and waits till then. `yield`, `vdrain`
and `end` (R168), and the end of a yield after 16 cycles. -/
def Obligations.WaitsAndEnd : Prop :=
  (∀ f : FS, ∀ p ∈ [(Instr.waitcLd f, Path.ld), (.waitcSt f, .st), (.waitcSp f, .sp), (.waitcCp f, .cp), (.waitcMx f, .mx),
      (.waitcFb f, .fb)],
    ∀ s g, Issues s g p.1 [f.sa] →
      (g.counter p.2 ≤ (g.reg f.sa.toNat).toNat → exec p.1 s = .next (s.setGrp s.sched.cur g.advance) ∧ NextWord g g.advance)
      ∧ ((g.reg f.sa.toNat).toNat < g.counter p.2 → exec p.1 s = .next s))
  ∧ ((∀ f s g, Issues s g (.yield f) [] →
    ∃ g', exec (.yield f) s = .next (s.setGrp s.sched.cur g') ∧ g'.yieldUntil = s.cycle + 16
      ∧ NextWord g { g' with yieldUntil := g.yieldUntil })
  ∧ (∀ s t g, s.grp t = some g → g.yieldUntil ≠ 0 → g.yieldUntil ≤ s.cycle →
    exec (.yieldExpire t) s = .next (s.setGrp t { g with yieldUntil := 0 }))
  ∧ (∀ f s g, Issues s g (.vdrain f) [] → g.vq = [] →
    (g.flights = [] → exec (.vdrain f) s = .next (s.setGrp s.sched.cur g.advance) ∧ NextWord g g.advance)
    ∧ (g.flights ≠ [] → exec (.vdrain f) s = .next s))
  ∧ (∀ f s g, Issues s g (.endGroup f) [] → g.vq = [] →
    (g.flights = [] ∧ g.stores = [] ∧ g.loads = [] ∧ g.flags = [] ∧ g.counted = [] →
      exec (.endGroup f) s = .next (s.setGrp s.sched.cur { g with run := .ended }))
    ∧ (g.flights ≠ [] ∨ g.stores ≠ [] ∨ g.loads ≠ [] ∨ g.flags ≠ [] ∨ g.counted ≠ [] →
      exec (.endGroup f) s = .next s)))

/-! Scalar memory. -/

/-- What a translation changes (R302, R303, R308): the A bit of its leaf's entry, and D for a write or an atomic, where
the entry is a valid leaf; what is cached and asked of the host; free choices drawn. Nothing else, and memory not at all
where it fails. -/
def Obligations.TranslationFrame : Prop :=
  ∀ s part va kind r s1, translate s part va kind = (r, s1) →
    { s1 with mem := s.mem, cached := s.cached, hostRequests := s.hostRequests, draws := s.draws } = s
    ∧ (∀ l t, r = .ok l t →
      (∀ e, l.addr = some e → Memory.read s1.mem e = if (Memory.readNat s.mem e 8) / 2 ^ 62 = 3 then
          Memory.read s.mem e ||| (if kind = .write ∨ kind = .atomic then 0xC0 else 0x40) else Memory.read s.mem e)
      ∧ ∀ b, l.addr ≠ some b → Memory.read s1.mem b = Memory.read s.mem b)
    ∧ ((∀ l t, r ≠ .ok l t) → s1.mem = s.mem)

/-- Scalar loads (R142, R147, R148, R161, R162, R322): the value of the bytes at the address, of an older buffered store
that holds them all else of memory, for which the core's port needs a token, sign- or zero-extended, is in s[sd] once the
load has returned; an acquire load has it at once. No byte of memory changes but the leaf's A bit. That the token is spent
at the access, and one for each access, is the model's choice (log entry 25). Scalar stores (R149, R161, R162, R322): the
low bits of s[sb] stand at the address once the store buffer has performed the store, little-endian, for which the core's
port needs a token (when it is spent is the model's choice, log entry 25); a release store (ORD 2) is performed at the
word. Every other byte reads as before, but for the leaf's A and D. -/
def Obligations.ScalarMemoryWords : Prop :=
  (∀ f : FS, ∀ p ∈ [(Instr.ldI8 f, 8, true), (.ldI16 f, 16, true), (.ldI32 f, 32, true), (.ldI64 f, 64, true),
      (.ldN8 f, 8, false), (.ldN16 f, 16, false), (.ldN32 f, 32, false)],
    ∀ s g l pa s1 v base, Issues s g p.1 [f.sa, f.sd] 1 → memoryAllowed s s.sched.cur g = true → g.acquiring = false →
      g.vq.any (fun e => e.writesGlobal) = false → (f.ord = 1 → g.vq = []) →
      let a := g.reg f.sa.toNat + BitVec.ofInt 64 f.imm.toInt
      let n := p.2.1 / 8
      a.toNat % n = 0 → translate s g.part a .read = (.ok l (.phys pa), s1) →
      let acc : Access := { elem := 0, size := n, va := a, target := .phys pa }
      g.flightOverlap g.nextId acc = false → g.loadOverlap g.nextId acc = false → (f.ord = 1 → s1.arrivingAt acc = false) →
      (forwardGlobal acc g.stores.reverse = .value v ∧ base = s1
        ∨ forwardGlobal acc g.stores.reverse = .none ∧ s1.hasTokens g.core 1 = true ∧ v = Memory.readNat s1.mem pa n
          ∧ base = s1.spend g.core 1) →
      let x : W64 := if p.2.2 then BitVec.ofInt 64 (BitVec.ofNat p.2.1 v).toInt else BitVec.ofNat 64 (v % 2 ^ p.2.1)
      let final (g2 : Grp) : Prop := SetsReg g g2 f.sd x
        ∧ NextWord g { g2 with loads := g.loads, formPast := g.formPast, readAhead := g.readAhead }
      (∀ b, l.addr ≠ some b → Memory.read s1.mem b = Memory.read s.mem b)
      ∧ (f.ord = 1 → ∃ g2, exec p.1 s = .next (base.setGrp s.sched.cur g2) ∧ final g2)
      ∧ (f.ord ≠ 1 → g.loads = [] →
        ∃ t1 g1 g2, exec p.1 s = .next t1 ∧ t1.grp s.sched.cur = some g1 ∧ t1.mem = s1.mem ∧ (∀ r, g1.reg r = g.reg r)
          ∧ (f.sd ≠ 0 → g1.anyPending [f.sd] = true)
          ∧ exec (.scalarLoadReturn s.sched.cur) t1 = .next (base.setGrp s.sched.cur g2) ∧ final g2))
  ∧ (∀ f : FS, ∀ p ∈ [(Instr.stN8 f, 1), (.stN16 f, 2), (.stN32 f, 4), (.stN64 f, 8)],
    ∀ s g l pa s1, Issues s g p.1 [f.sa, f.sb] → memoryAllowed s s.sched.cur g = true → g.acquiring = false →
      g.vq = [] → g.stores = [] → g.counter .st < 65535 →
      let a := g.reg f.sa.toNat + BitVec.ofInt 64 f.imm.toInt
      a.toNat % p.2 = 0 → translate s g.part a .write = (.ok l (.phys pa), s1) →
      let acc : Access := { elem := 0, size := p.2, va := a, target := .phys pa }
      g.flightOverlap g.nextId acc = false → g.loadOverlap g.nextId acc = false → s1.hasTokens g.core 1 = true →
      let stored (m : Memory) : Prop := Memory.readNat m pa p.2 = (g.reg f.sb.toNat).toNat % 256 ^ p.2
        ∧ ∀ b, b < pa ∨ pa + p.2 ≤ b → l.addr ≠ some b → Memory.read m b = Memory.read s.mem b
      (f.ord ≠ 2 →
        ∃ t1 t2 g2, exec p.1 s = .next t1 ∧ t1.mem = s1.mem ∧ exec (.storeBufferPerform s.sched.cur) t1 = .next t2
          ∧ t2.grp s.sched.cur = some g2 ∧ stored t2.mem
          ∧ NextWord g { g2 with counted := g.counted, formPast := g.formPast })
      ∧ (f.ord = 2 → g.quiet f.scope = true →
        ∃ t g2, exec p.1 s = .next t ∧ t.grp s.sched.cur = some g2 ∧ stored t.mem
          ∧ NextWord g { g2 with formPast := g.formPast }))

/-- `lds` and `sts` (R162): the bytes at a scratchpad offset inside the group's own allocation, read into s[sd], or
written once the store buffer has performed the store; no byte of memory and no other byte of any scratchpad changes. -/
def Obligations.ScratchpadWords : Prop :=
  ∀ (f : FS) (s : State) (g : Grp),
    let a := (g.reg f.sa.toNat + BitVec.ofInt 64 f.imm.toInt).toNat
    let n := 2 ^ (f.ext.toNat % 4)
    memoryAllowed s s.sched.cur g = true → g.acquiring = false → g.vq = [] → g.flights = [] → g.stores = [] →
    a % n = 0 → g.spadBase ≤ a → a + n ≤ g.spadBase + 4096 * g.spad →
    g.loads = [] →
    (Issues s g (.lds f) [f.sa, f.sd] 1 →
      ∃ g1 g2, exec (.lds f) s = .next (s.setGrp s.sched.cur g1) ∧ (∀ r, g1.reg r = g.reg r)
        ∧ exec (.scalarLoadReturn s.sched.cur) (s.setGrp s.sched.cur g1) = .next (s.setGrp s.sched.cur g2)
        ∧ SetsReg g g2 f.sd (BitVec.ofNat 64 (Memory.readNat s.spad (131072 * g.core + a) n))
        ∧ NextWord g { g2 with loads := g.loads, formPast := g.formPast })
    ∧ (Issues s g (.sts f) [f.sa, f.sb] → g.counter .sp < 65535 →
      ∃ t1 t2 g2, exec (.sts f) s = .next t1 ∧ t1.mem = s.mem ∧ t1.spad = s.spad
        ∧ exec (.storeBufferPerform s.sched.cur) t1 = .next t2 ∧ t2.mem = s.mem ∧ t2.grp s.sched.cur = some g2
        ∧ Memory.readNat t2.spad (131072 * g.core + a) n = (g.reg f.sb.toNat).toNat % 256 ^ n
        ∧ (∀ b, b < 131072 * g.core + a ∨ 131072 * g.core + a + n ≤ b → Memory.read t2.spad b = Memory.read s.spad b)
        ∧ NextWord g { g2 with counted := g.counted, formPast := g.formPast })

/-- Scalar atomics and `cas` (R142, R163, R322): as one access, for which the core's port needs a token, the old value
sign-extended to s[sd] and the new value in memory; no other byte changes but the leaf's A and D. -/
def Obligations.ScalarAtomics : Prop :=
  ∀ f : FS,
    let bits := 8 * 2 ^ (f.ext.toNat % 4)
    let signed (x : Nat) : Int := (BitVec.ofNat bits x).toInt
    let word (i : Instr) (new : Nat → Nat → Nat → Nat) : Prop :=
      ∀ s g l pa s1, Issues s g i [f.sa, f.sb, f.sd] → memoryAllowed s s.sched.cur g = true → g.acquiring = false →
        g.vq = [] →
        let a := g.reg f.sa.toNat + BitVec.ofInt 64 f.imm.toInt
        a.toNat % (bits / 8) = 0 → translate s g.part a .atomic = (.ok l (.phys pa), s1) →
        let acc : Access := { elem := 0, size := bits / 8, va := a, target := .phys pa }
        g.accessWaits acc (decide (f.ord ≥ 2)) f.scope = false → (f.ord % 2 = 1 → s1.arrivingAt acc = false) →
        s1.hasTokens g.core 1 = true →
        let y := (g.reg f.sb.toNat).toNat % 2 ^ bits
        let x := (g.reg f.sd.toNat).toNat % 2 ^ bits
        let old := Memory.readNat s1.mem pa (bits / 8)
        ∃ t g', exec i s = .next t ∧ t.grp s.sched.cur = some g' ∧ SetsReg g g' f.sd (BitVec.ofInt 64 (signed old))
          ∧ Memory.readNat t.mem pa (bits / 8) = new old x y
          ∧ (∀ b, b < pa ∨ pa + bits / 8 ≤ b → l.addr ≠ some b → Memory.read t.mem b = Memory.read s.mem b)
          ∧ NextOrdered g g'
    word (.aadd f) (fun old _ y => (old + y) % 2 ^ bits)
    ∧ word (.aand f) (fun old _ y => Nat.land old y)
    ∧ word (.aor f) (fun old _ y => Nat.lor old y)
    ∧ word (.axor f) (fun old _ y => Nat.xor old y)
    ∧ word (.amin f) (fun old _ y => if signed y < signed old then y else old)
    ∧ word (.amax f) (fun old _ y => if signed old < signed y then y else old)
    ∧ word (.aswap f) (fun _ _ y => y)
    ∧ word (.cas f) (fun old x y => if old = x then y else old)

/-- `cflush`, `cwb` and `icinv` (R149, R164): they take their place in the store buffer; performed, they change no memory,
and `icinv` leaves no line in the core's instruction cache. -/
def Obligations.CacheWords : Prop :=
  (∀ f : FS, ∀ i ∈ [Instr.cflush f, .cwb f], ∀ s g l pa s1, Issues s g i [f.sa] → g.vq = [] → g.stores = [] →
    g.counter .st < 65535 →
    translate s g.part (g.reg f.sa.toNat + BitVec.ofInt 64 f.imm.toInt) .cache = (.ok l (.phys pa), s1) →
    ∃ t1 t2 g1 g2, exec i s = .next t1 ∧ t1.grp s.sched.cur = some g1 ∧ g1.stores.length = 1
      ∧ exec (.storeBufferPerform s.sched.cur) t1 = .next t2 ∧ t2.grp s.sched.cur = some g2 ∧ t2.mem = s1.mem
      ∧ NextWord g { g2 with counted := g.counted })
  ∧ ∀ f s g, Issues s g (.icinv f) [] → g.vq = [] → g.stores = [] →
    ∃ t1 t2 g1, exec (.icinv f) s = .next t1 ∧ t1.grp s.sched.cur = some g1 ∧ g1.stores.length = 1
      ∧ exec (.storeBufferPerform s.sched.cur) t1 = .next t2 ∧ (t2.coreAt g.core).icache = [] ∧ t2.mem = s.mem
      ∧ ∃ g2, t2.grp s.sched.cur = some g2 ∧ NextWord g g2

/-- The traps of a scalar access (R146, R161, R162): ALIGN for an address that is no multiple of the width, then the fault
of the translation, with its detail and kind, or LEASE_REVOKED; SPBOUND outside the group's scratchpad. Nothing is
accessed. -/
def Obligations.ScalarAccessTraps : Prop :=
  (∀ f : FS, ∀ p ∈ [(Instr.ldI8 f, 1, AccessKind.read, 0), (.ldI16 f, 2, .read, 0), (.ldI32 f, 4, .read, 0),
      (.ldI64 f, 8, .read, 0), (.ldN8 f, 1, .read, 0), (.ldN16 f, 2, .read, 0), (.ldN32 f, 4, .read, 0),
      (.stN8 f, 1, .write, 1), (.stN16 f, 2, .write, 1), (.stN32 f, 4, .write, 1), (.stN64 f, 8, .write, 1),
      (.aadd f, 2 ^ f.w, .atomic, 2), (.aand f, 2 ^ f.w, .atomic, 2), (.aor f, 2 ^ f.w, .atomic, 2),
      (.axor f, 2 ^ f.w, .atomic, 2), (.amin f, 2 ^ f.w, .atomic, 2), (.amax f, 2 ^ f.w, .atomic, 2),
      (.aswap f, 2 ^ f.w, .atomic, 2), (.cas f, 2 ^ f.w, .atomic, 2)],
    ∀ s g, Issues s g p.1 [f.sa, f.sb, f.sd] → memoryAllowed s s.sched.cur g = true → g.vq = [] → g.acquiring = false →
      let a := g.reg f.sa.toNat + BitVec.ofInt 64 f.imm.toInt
      (a.toNat % p.2.1 ≠ 0 →
        exec p.1 s = .next (takeTrap s s.sched.cur { cause := 0x04, addr := a } g.pc g.hdr))
      ∧ (∀ d s1, a.toNat % p.2.1 = 0 → translate s g.part a p.2.2.1 = (.fault d, s1) →
        exec p.1 s =
          .next (takeTrap s1 s.sched.cur { cause := 0x06, detail := d + 256 * p.2.2.2, addr := a } g.pc g.hdr))
      ∧ (∀ k s1, a.toNat % p.2.1 = 0 → translate s g.part a p.2.2.1 = (.revoked k, s1) →
        exec p.1 s = .next (takeTrap s1 s.sched.cur { cause := 0x08, detail := k, addr := a } g.pc g.hdr)))
  ∧ ∀ f : FS, ∀ i ∈ [Instr.lds f, .sts f], ∀ s g, Issues s g i [f.sa, f.sb, f.sd] → memoryAllowed s s.sched.cur g = true →
      g.vq = [] → g.acquiring = false →
      let a := g.reg f.sa.toNat + BitVec.ofInt 64 f.imm.toInt
      (a.toNat % 2 ^ f.w ≠ 0 → exec i s = .next (takeTrap s s.sched.cur { cause := 0x04, addr := a } g.pc g.hdr))
      ∧ (a.toNat % 2 ^ f.w = 0 → (a.toNat < g.spadBase ∨ g.spadBase + 4096 * g.spad < a.toNat + 2 ^ f.w) →
        exec i s = .next (takeTrap s s.sched.cur { cause := 0x05, addr := a } g.pc g.hdr))

/-! Synchronisation and completion counters. -/

/-- `fence` (R387, R395, R396): it completes once the accesses that it orders are performed, and waits till then; at scope
0 it has no effect. `bar` (R397): a group arrives once its older accesses are performed; the last arrival of an instance
lets it be released; a released group goes on. A count outside 1 to 16 (core) or 64 (cluster) is ILLEGAL with reason 4.
`gbar` (R398): a task arrives once its older accesses are performed; when every task of the launch has arrived or retired
the instance is released, and each task goes on. -/
def Obligations.FencesAndBarriers : Prop :=
  (∀ f s g, Issues s g (.fence f) [] → Drained g →
    let scope := f.scope.toNat
    let ready : Prop := scope = 0 ∨ g.fencedBefore g.nextId f.ord.toNat scope = true
    (ready → ∃ g', exec (.fence f) s = .next (s.setGrp s.sched.cur g') ∧ NextOrdered g g' ∧ ∀ r, g'.reg r = g.reg r)
    ∧ (¬ready → exec (.fence f) s = .next s))
  ∧ ((∀ f s g, Issues s g (.bar f) [f.sa] → Drained g →
    let scope := f.scope.toNat
    let unit := if scope = 1 then g.core else g.core / 4
    let count := (g.reg f.sa.toNat).toNat
    let legal : Prop := 1 ≤ count ∧ count ≤ (if scope = 1 then 16 else 64)
    (¬legal → exec (.bar f) s = .next (takeTrap s s.sched.cur { cause := 0x01, detail := 4 } g.pc g.hdr))
    ∧ (legal → g.released = true →
      ∃ g', exec (.bar f) s = .next (s.setGrp s.sched.cur g')
        ∧ NextOrdered g { g' with released := g.released, arrived := g.arrived } ∧ g'.released = false ∧ g'.arrived = none)
    ∧ (legal → g.released = false → g.arrived = none → g.fenced 3 scope = true →
      ∀ bs, arrive (s.barsOf scope unit) g.launch (f.tcid.toNat % 16) count s.sched.cur = some bs →
        ∃ t, exec (.bar f) s = .next t ∧ t.barsOf scope unit = bs
          ∧ t.grp s.sched.cur = some { g with arrived := some (scope, f.tcid.toNat % 16) }))
  ∧ ∀ s launch scope unit number b rest, scope = 1 ∨ scope = 2 →
    takeComplete launch number (s.barsOf scope unit) = some (b, rest) →
    ∃ t, exec (.barRelease launch scope unit number) s = .next t ∧ t.barsOf scope unit = rest
      ∧ b.count ≤ b.arrivals.length
      ∧ (∀ k g, s.grp k = some g → t.grp k = some (if k ∈ b.arrivals then { g with released := true } else g))
      ∧ t.mem = s.mem ∧ t.spad = s.spad)
  ∧ ((∀ f s g l, Issues s g (.gbar f) [] 0 .user true → Drained g → s.launchAt g.launch = some l →
    (g.gbars < l.gbarDone →
      ∃ g', exec (.gbar f) s = .next (s.setGrp s.sched.cur g') ∧ g'.gbars = g.gbars + 1
        ∧ NextOrdered g { g' with gbars := g.gbars })
    ∧ (l.gbarDone ≤ g.gbars → g.ordinal ∉ l.gbars → g.fenced 3 4 = true →
      exec (.gbar f) s = .next (s.setLaunch g.launch { l with gbars := l.gbars ++ [g.ordinal] })))
  ∧ ∀ s n l, s.launchAt n = some l → l.gbars ≠ [] → l.gbars.length + l.retired = l.total →
    exec (.gbarRelease n) s = .next (s.setLaunch n { l with gbarDone := l.gbarDone + 1, gbars := [] }))

/-- The words that read or write one dword of memory for synchronising (R322, R351, R352, R399, R400), for which the
core's port needs a token: `ctradd` adds to COUNT modulo 2^63 and keeps ERR sticky, `ctrset` stores s[sb], `ctrwait` waits
for COUNT or ERR, `mwait` for its condition; the old value or the value read is in s[sd]. No byte but the dword's changes,
and those of the leaf's A and D. A waiting `ctrwait` or `mwait` reads its dword again whenever the device chooses (R352,
R400): the effect is that of the word at its group's turn. A waiting `ctrwait` or `mwait` that reads its dword again
completes (R352, R400), for every state in which the word could issue at its group's turn: once its condition holds the
value read is in s[sd] and its group goes on, and till then it waits; the turn that comes next is the same. -/
def Obligations.CountersAndWaits : Prop :=
  (∀ s g l pa s1, s1.hasTokens g.core 1 = true →
    let acc (a : W64) : Access := { elem := 0, size := 8, va := a, target := .phys pa }
    let free (a : W64) (ord scope : Nat) : Prop :=
      g.accessWaits (acc a) (decide (ord ≥ 2)) scope = false ∧ (ord % 2 = 1 → s1.arrivingAt (acc a) = false)
    let same (m : Memory) : Prop := ∀ b, l.addr ≠ some b → Memory.read m b = Memory.read s.mem b
    let old := Memory.readNat s1.mem pa 8
    (∀ f : FC, Issues s g (.ctradd f) [f.sa, f.sb, f.sd] 1 → Drained g →
      (g.reg f.sa.toNat).toNat % 8 = 0 → translate s g.part (g.reg f.sa.toNat) .atomic = (.ok l (.phys pa), s1) →
      free (g.reg f.sa.toNat) f.ord.toNat f.scope.toNat →
      let v := (g.reg f.sb.toNat).toNat
      ∃ t g', exec (.ctradd f) s = .next t ∧ t.grp s.sched.cur = some g' ∧ SetsReg g g' f.sd (BitVec.ofNat 64 old)
        ∧ NextOrdered g g'
        ∧ Memory.readNat t.mem pa 8 = (old + v) % 2 ^ 63 + (if old / 2 ^ 63 = 1 ∨ v / 2 ^ 63 = 1 then 2 ^ 63 else 0)
        ∧ ∀ b, b < pa ∨ pa + 8 ≤ b → l.addr ≠ some b → Memory.read t.mem b = Memory.read s.mem b)
    ∧ (∀ f : FC, Issues s g (.ctrset f) [f.sa, f.sb] → Drained g →
      (g.reg f.sa.toNat).toNat % 8 = 0 → translate s g.part (g.reg f.sa.toNat) .write = (.ok l (.phys pa), s1) →
      free (g.reg f.sa.toNat) f.ord.toNat f.scope.toNat →
      ∃ t g', exec (.ctrset f) s = .next t ∧ t.grp s.sched.cur = some g' ∧ (∀ r, g'.reg r = g.reg r) ∧ NextOrdered g g'
        ∧ Memory.readNat t.mem pa 8 = (g.reg f.sb.toNat).toNat
        ∧ ∀ b, b < pa ∨ pa + 8 ≤ b → l.addr ≠ some b → Memory.read t.mem b = Memory.read s.mem b)
    ∧ (∀ f : FC, Issues s g (.ctrwait f) [f.sa, f.sb, f.sd] 1 → Drained g →
      (g.reg f.sa.toNat).toNat % 8 = 0 → translate s g.part (g.reg f.sa.toNat) .read = (.ok l (.phys pa), s1) →
      free (g.reg f.sa.toNat) f.ord.toNat 0 →
      let v := (g.reg f.sb.toNat).toNat
      let met : Prop := v % 2 ^ 63 ≤ old % 2 ^ 63 ∨ old / 2 ^ 63 = 1
      ∃ t g', exec (.ctrwait f) s = .next t ∧ t.grp s.sched.cur = some g' ∧ same t.mem
        ∧ (met → SetsReg g g' f.sd (BitVec.ofNat 64 old) ∧ NextOrdered g g') ∧ (¬met → g' = g))
    ∧ (∀ f : FS, Issues s g (.mwait f) [f.sa, f.sb, f.sd] 1 → Drained g →
      let a := g.reg f.sa.toNat + BitVec.ofInt 64 f.imm.toInt
      a.toNat % 8 = 0 → translate s g.part a .read = (.ok l (.phys pa), s1) → free a f.ord 0 →
      let y := (g.reg f.sb.toNat).toNat
      let met : Prop := (f.w = 0 ∧ old ≠ y) ∨ (f.w = 1 ∧ y ≤ old) ∨ (f.w = 2 ∧ old = y)
      ∃ t g', exec (.mwait f) s = .next t ∧ t.grp s.sched.cur = some g' ∧ same t.mem
        ∧ (met → SetsReg g g' f.sd (BitVec.ofNat 64 old) ∧ NextOrdered g g') ∧ (¬met → g' = g)))
  ∧ (∀ s k g w s', s.grp k = some g → g.wordAt = some w → g.run = .running →
    (∀ f, decodeWord w = .ok (.ctrwait f) → exec (.ctrwait f) { s with sched := { s.sched with cur := k } } = .next s' →
      exec (.ctrwaitReread k) s = .next { s' with sched := s.sched })
    ∧ (∀ f, decodeWord w = .ok (.mwait f) → exec (.mwait f) { s with sched := { s.sched with cur := k } } = .next s' →
      exec (.mwaitReread k) s = .next { s' with sched := s.sched }))
  ∧ (∀ s k g w l pa s1, g.wordAt = some w → s1.hasTokens g.core 1 = true →
    let s0 : State := { s with sched := { s.sched with cur := k } }
    let acc (a : W64) : Access := { elem := 0, size := 8, va := a, target := .phys pa }
    let free (a : W64) (ord : Nat) : Prop :=
      a.toNat % 8 = 0 ∧ translate s0 g.part a .read = (.ok l (.phys pa), s1)
        ∧ g.accessWaits (acc a) (decide (ord ≥ 2)) 0 = false ∧ (ord % 2 = 1 → s1.arrivingAt (acc a) = false)
    let old := Memory.readNat s1.mem pa 8
    let ends (i : Instr) (sd : BitVec 6) (met : Prop) : Prop :=
      ∃ t g', exec i s = .next t ∧ t.grp k = some g' ∧ t.sched = s.sched
        ∧ (∀ b, l.addr ≠ some b → Memory.read t.mem b = Memory.read s.mem b)
        ∧ (met → SetsReg g g' sd (BitVec.ofNat 64 old) ∧ NextOrdered g g') ∧ (¬met → g' = g)
    (∀ f : FC, decodeWord w = .ok (.ctrwait f) → Issues s0 g (.ctrwait f) [f.sa, f.sb, f.sd] 1 → Drained g →
      free (g.reg f.sa.toNat) f.ord.toNat →
      let v := (g.reg f.sb.toNat).toNat
      ends (.ctrwaitReread k) f.sd (v % 2 ^ 63 ≤ old % 2 ^ 63 ∨ old / 2 ^ 63 = 1))
    ∧ (∀ f : FS, decodeWord w = .ok (.mwait f) → Issues s0 g (.mwait f) [f.sa, f.sb, f.sd] 1 → Drained g →
      free (g.reg f.sa.toNat + BitVec.ofInt 64 f.imm.toInt) f.ord →
      let y := (g.reg f.sb.toNat).toNat
      ends (.mwaitReread k) f.sd ((f.w = 0 ∧ old ≠ y) ∨ (f.w = 1 ∧ y ≤ old) ∨ (f.w = 2 ∧ old = y))))

/-! Traps, state registers and the monitors. -/

/-- Taking a trap (R417, R418), for a group with no older instruction under way: with a handler the trap point, the cause,
the level and the address are saved, the level becomes supervisor and the handler at TVEC follows; without one, or with
TACT set, the group is parked with a token, whose number is the model's (log entry 8), and a trap record of R422 goes to
its partition's fault queue: into the ring's next slot where that has room and translates, and else behind the records
that wait (R421). Registers and the rest of memory keep their values. -/
def Obligations.TakingATrap : Prop :=
  ∀ s tag g i pc hdr, s.grp tag = some g → g.vq = [] → g.undo = [] → i.detail < 2 ^ 16 → i.cause < 256 →
    let tvec := (s.partAt g.part).tvec
    (g.tact = false → tvec ≠ 0 →
      ∃ g', takeTrap s tag i pc hdr = s.setGrp tag g' ∧ g'.tepc = pc ∧ g'.thdr = hdr ∧ g'.taddr = i.addr
        ∧ g'.tcause.toNat % 256 = i.cause ∧ g'.tcause.toNat / 2 ^ 8 % 2 ^ 16 = i.detail
        ∧ g'.tcause.toNat / 2 ^ 24 % 4 = g.level.num ∧ g'.tact = true ∧ g'.level = .supervisor ∧ g'.pc = tvec
        ∧ g'.hdr = tvec ∧ g'.run = g.run ∧ g'.s = g.s ∧ g'.v = g.v ∧ g'.m = g.m ∧ g'.acc = g.acc ∧ g'.xflags = g.xflags)
    ∧ (g.tact = true ∨ tvec = 0 →
      let t := takeTrap s tag i pc hdr
      let u := s.partAt g.part
      let cause := if g.tact then 0x0B else i.cause
      let detail := if g.tact then i.cause + i.detail % 256 * 256 else i.detail
      let record := layout [(1, 1), (1, cause), (2, detail), (1, g.part), (1, g.level.num), (2, tag), (4, s.nextToken),
        (4, g.launch % 2 ^ 32), (8, pc.toNat), (8, hdr.toNat), (8, i.addr.toNat), (8, i.elem % 2 ^ 11 + i.lbid % 2 ^ 12 * 2 ^ 12), (8, 0),
        (8, s.cycle % 2 ^ 64)]
      let room : Prop := u.waiting = [] ∧ 4 ≤ u.fqbase.toNat % 32 ∧ u.fqbase.toNat % 32 ≤ 16
        ∧ (u.fqwidx + 2 ^ 32 - u.fqridx) % 2 ^ 32 < 2 ^ (u.fqbase.toNat % 32)
      ∃ g', t.grp tag = some g' ∧ g'.run = .parked s.nextToken ∧ g'.pc = pc ∧ g'.hdr = hdr ∧ g'.level = g.level
        ∧ g'.tcause = g.tcause ∧ g'.tepc = g.tepc ∧ g'.thdr = g.thdr ∧ g'.taddr = g.taddr ∧ g'.s = g.s ∧ g'.v = g.v ∧ g'.m = g.m
        ∧ g'.acc = g.acc ∧ g'.xflags = g.xflags ∧ t.nextToken = s.nextToken + 1 ∧ t.spad = s.spad
        ∧ (¬room → t.mem = s.mem
          ∧ (t.partAt g.part).waiting = u.waiting ++ [{ gtag := tag, token := s.nextToken, bytes := record }])
        ∧ (room → g.part ≠ 255 →
          let slot := u.fqbase.toNat / 64 % 2 ^ 51 * 64 + 64 * (u.fqwidx % 2 ^ (u.fqbase.toNat % 32))
          ∀ l pa s1, translate (({ s with nextToken := s.nextToken + 1 } : State).setGrp tag g') g.part (BitVec.ofNat 64 slot) .write =
              (.ok l (.phys pa), s1) →
            (∀ k, k < 64 → Memory.read t.mem (pa + k) = record.getD k 0)
            ∧ (∀ a, a < pa ∨ pa + 64 ≤ a → Memory.read t.mem a = Memory.read s1.mem a)
            ∧ (t.partAt g.part).fqwidx = (u.fqwidx + 1) % 2 ^ 32 ∧ (t.partAt g.part).waiting = []))

/-- A trap found at the head of the vector queue is taken there, at VCOMMIT (R141, R418). `trap` (R433) takes cause 0x0A
with imm32[15:0] as detail at the next clause header; `eret` (R434) restores level and place from the trap registers and
clears TACT, and outside a handler is ILLEGAL with reason 4. -/
def Obligations.VectorTrapAndReturn : Prop :=
  (∀ s tag g e rest i, s.grp tag = some g → g.vq = e :: rest → e.trap = some i →
    exec (.takeTrap tag) s = .next (takeTrap s tag i e.pc e.hdr))
  ∧ ((∀ f s g, Issues s g (.trap f) [] → Drained g →
    let next := g.hdr + BitVec.ofNat 64 (8 * g.clause.length)
    exec (.trap f) s = .next (takeTrap s s.sched.cur { cause := 0x0A, detail := f.imm.toNat % 2 ^ 16 } next next))
  ∧ ∀ f s g, Issues s g (.eret f) [] 0 .supervisor → Drained g →
    (g.tact = true →
      ∃ g', exec (.eret f) s = .next (s.setGrp s.sched.cur g') ∧ g'.pc = g.tepc ∧ g'.hdr = g.thdr
        ∧ g'.level.num = min 2 (g.tcause.toNat / 2 ^ 24 % 4) ∧ g'.tact = false
        ∧ (∀ k, k ≠ 31 → g'.tcause.getLsbD k = g.tcause.getLsbD k)
        ∧ { g' with level := g.level, tcause := g.tcause, pc := g.pc, hdr := g.hdr, clause := g.clause,
                    midClause := g.midClause, nextId := g.nextId, formId := g.formId } = g)
    ∧ (g.tact = false → exec (.eret f) s = .next (takeTrap s s.sched.cur { cause := 0x01, detail := 4 } g.pc g.hdr)))

/-- A privileged word at user level takes PRIV and has no effect (R2, R415). -/
def Obligations.PrivilegedWordsTrap : Prop :=
  ∀ s g, AtTurn s g → g.level = .user → g.vq = [] →
    let traps (i : Instr) : Prop := exec i s = .next (takeTrap s s.sched.cur { cause := 0x03 } g.pc g.hdr)
    (∀ f, traps (.eret f)) ∧ (∀ f, traps (.moncfg f)) ∧ (∀ f, traps (.monread f)) ∧ (∀ f, traps (.lexport f))
    ∧ (∀ f, traps (.lmap f)) ∧ (∀ f, traps (.lreclaim f)) ∧ (∀ f, traps (.lack f)) ∧ (∀ f, traps (.ctxsave f))
    ∧ (∀ f, traps (.ctxload f)) ∧ (∀ f, traps (.scrub f)) ∧ (∀ f, traps (.pmigrate f)) ∧ (∀ f, traps (.ckpt f))
    ∧ (∀ f : FI, 0x100 ≤ f.imm.toNat % 2 ^ 12 → traps (.getsr f) ∧ traps (.setsr f))

/-- `getsr` (R39, R435, R452): the state register as it stands, once the older words that write it have executed. VCOMMIT
with an empty queue is the place of the word itself, by the model's reading (log entry 31). `setsr` of the trap registers
(R417, R435, R436) and, from supervisor level, of the form registers (R240): the writable bits change, every other bit of
the register and everything else is kept; of a root register (R452): a command with GO starts an append or an export
unless one is under way; of a queued register (R43): at its commit. `getcap` (R25, R28-R30): the dword of the capability
list at s[sa] + imm, dword 2 of which is the list's length, zero from its end on; an offset that is no multiple of 8 is
ILLEGAL with reason 4. -/
def Obligations.StateRegisters : Prop :=
  (∀ (f : FI) s g, Issues s g (.getsr f) [f.sd] 1 (srLevel (f.imm.toNat % 2 ^ 12)) → Drained g → g.flights = [] →
    let index := f.imm.toNat % 2 ^ 12
    let reads (x : W64) : Prop := ∃ g', exec (.getsr f) s = .next (s.setGrp s.sched.cur g') ∧ SetsReg g g' f.sd x ∧ NextWord g g'
    (index = 0x000 → reads (BitVec.ofNat 64 g.vl)) ∧ (index = 0x001 → reads g.vconf)
    ∧ (index = 0x002 → reads (BitVec.ofNat 64 g.vtail)) ∧ (index = 0x003 → reads g.pc)
    ∧ (index = 0x004 → reads (BitVec.ofNat 64 g.xflagsNow)) ∧ (index = 0x005 → reads (BitVec.ofNat 64 g.allocth))
    ∧ (index = 0x006 → reads (BitVec.ofNat 64 s.cycle)) ∧ (index = 0x007 →
      reads (BitVec.ofNat 64 (8 * (if bitOf s.dieMask (g.core / 128) then (s.coreAt g.core).lanes else 0))))
    ∧ (index = 0x010 → reads g.rankcfg) ∧ (index = 0x011 → reads g.attbase) ∧ (index = 0x012 → reads g.recbase)
    ∧ (∀ k, k < 8 → index = 0x020 + k → reads (FMap.get 0 g.fprog k))
    ∧ (index = 0x030 → reads (BitVec.ofNat 64 (g.counter .ld))) ∧ (index = 0x031 → reads (BitVec.ofNat 64 (g.counter .st)))
    ∧ (index = 0x032 → reads (BitVec.ofNat 64 (g.counter .sp))) ∧ (index = 0x033 → reads (BitVec.ofNat 64 (g.counter .cp)))
    ∧ (index = 0x034 → reads (BitVec.ofNat 64 (g.counter .mx))) ∧ (index = 0x035 → reads (BitVec.ofNat 64 (g.counter .fb)))
    ∧ (index = 0x100 → reads g.tepc) ∧ (index = 0x101 → reads g.thdr) ∧ (index = 0x102 → reads g.tcause)
    ∧ (index = 0x103 → reads g.taddr) ∧ (index = 0x104 → reads g.tscr0) ∧ (index = 0x105 → reads g.tscr1)
    ∧ (index = 0x200 → reads (BitVec.ofNat 64 s.root.audseq))
    ∧ (∀ k, k < 8 → (index = 0x208 + k → reads (s.root.head.extractLsb' (64 * k) 64))
      ∧ (index = 0x210 + k → reads (s.root.bootm.extractLsb' (64 * k) 64)))
    ∧ (index = 0x201 → reads (BitVec.ofNat 64 (s.root.audseq - s.root.log.length)))
    ∧ (index = 0x202 → reads (BitVec.ofNat 64 ((if s.root.busy then 2 ^ 62 else 0) + s.root.opn)))
    ∧ (index = 0x203 → reads s.root.arg) ∧ (index = 0x204 → reads s.root.nonce))
  ∧ ((∀ (f : FI) s g, Issues s g (.setsr f) [f.sa] 0 .supervisor → Drained g →
    let index := f.imm.toNat % 2 ^ 12
    let x := g.reg f.sa.toNat
    let writes (h : Grp) : Prop := exec (.setsr f) s = .next (s.setGrp s.sched.cur h.advance)
    (index = 0x100 → writes { g with tepc := (g.tepc &&& 7) ||| (x &&& ~~~7) })
    ∧ (index = 0x101 → writes { g with thdr := (g.thdr &&& 7) ||| (x &&& ~~~7) })
    ∧ (index = 0x102 → x.getLsbD 25 = false →
      writes { g with tcause := (g.tcause &&& ~~~0x007FFFFF03FFFFFF) ||| (x &&& 0x007FFFFF03FFFFFF) })
    ∧ (index = 0x103 → writes { g with taddr := x }) ∧ (index = 0x104 → writes { g with tscr0 := x })
    ∧ (index = 0x105 → writes { g with tscr1 := x }))
  ∧ (∀ (f : FI) s g k, Issues s g (.setsr f) [f.sa] → Drained g → k < 8 → f.imm.toNat % 2 ^ 12 = 0x020 + k →
    let x := g.reg f.sa.toNat
    let old : W64 := FMap.get 0 g.fprog k
    let kept : W64 := if k = 0 then 0x0FFFFFFF00000000 else if k = 4 then 0xFFFFFFFFFFFF0000 else if k < 4 then 0 else 0xFFFFFFFFFFFFFFFF
    (g.level = .user → exec (.setsr f) s = .next (takeTrap s s.sched.cur { cause := 0x01, detail := 4 } g.pc g.hdr))
    ∧ (g.level ≠ .user → ∃ h, exec (.setsr f) s = .next (s.setGrp s.sched.cur ({ g with fprog := h } : Grp).advance)
      ∧ FMap.get 0 h k = (old &&& kept) ||| (x &&& ~~~kept) ∧ ∀ j, j ≠ k → FMap.get 0 h j = FMap.get 0 g.fprog j))
  ∧ (∀ (f : FI) s g, Issues s g (.setsr f) [f.sa] 0 .machine → Drained g →
    let index := f.imm.toNat % 2 ^ 12
    let x := g.reg f.sa.toNat
    let r := s.root
    let writes (r' : Root) : Prop := exec (.setsr f) s = .next (({ s with root := r' } : State).setGrp s.sched.cur g.advance)
    let op := x.toNat % 4
    (index = 0x202 → x.getLsbD 63 = true → r.busy = true → writes r)
    ∧ (index = 0x202 → x.getLsbD 63 = true → r.busy = false → writes { r with opn := op, busy := op = 1 || op = 2, doing := op })
    ∧ (index = 0x202 → x.getLsbD 63 = false → writes { r with opn := op })
    ∧ (index = 0x203 → writes { r with arg := x }) ∧ (index = 0x204 → writes { r with nonce := x }))
  ∧ ∀ (f : FI) s g, Issues s g (.setsr f) [f.sa] → g.vq = [] → g.flights = [] → g.undo = [] →
    let index := f.imm.toNat % 2 ^ 12
    let x := g.reg f.sa.toNat
    let writes (h : Grp) : Prop :=
      ∃ s1 g2, exec (.setsr f) s = .next s1 ∧ exec (.commit s.sched.cur) s1 = .next (s.setGrp s.sched.cur g2) ∧ NextWord h g2
    (index = 0x001 → badVconf x.toNat = false → writes { g with vconf := x, drm := x.toNat / 2 ^ 13 % 8 })
    ∧ (index = 0x004 → x.toNat < 64 → writes { g with xflags := x.toNat })
    ∧ (index = 0x005 → writes { g with allocth := x.toNat % 2 ^ 32 })
    ∧ (index = 0x010 → badRankcfg x.toNat = false → writes { g with rankcfg := x })
    ∧ (index = 0x011 → writes { g with attbase := x }) ∧ (index = 0x012 → writes { g with recbase := x }))
  ∧ ((∀ (f : FI) s g, Issues s g (.getcap f) [f.sa, f.sd] 1 →
    let off := (g.reg f.sa.toNat + BitVec.ofNat 64 f.imm.toNat).toNat
    (off % 8 = 0 →
      ∃ g', exec (.getcap f) s = .next (s.setGrp s.sched.cur g') ∧ SetsReg g g' f.sd (BitVec.ofNat 64 (capDword s off))
        ∧ NextWord g g')
    ∧ (off % 8 ≠ 0 →
      TrapsAt (.getcap f) s g { cause := 0x01, detail := 4 }))
  ∧ ∀ s, (∀ off, off % 8 = 0 → capDword s 16 ≤ off → capDword s off = 0) ∧ capDword s 0 % 2 ^ 16 = 1)

/-- `moncfg` and `monread` (R448-R450): a unit is configured, its statistics reset under CLR, and its words read back; the
status of `moncfg` is 0, or 1 for an absent die and 2 for a bad selector or configuration, with no effect. A selector with
both faults has status 1, which the manual leaves open (log entry 31). Samples (R134, R136, R426, R448, R449): an enabled
unit of the source that samples at times of its own records a value, which is the device's (log entry 18); a corrected
error is counted by each unit of its die that samples it for all partitions and cores, and changes nothing but the
monitors of its die; a publication sets the die's congestion level. -/
def Obligations.Monitors : Prop :=
  (∀ (f : FS) s g,
    let a := (g.reg f.sa.toNat).toNat
    let x := g.reg f.sb.toNat
    let unit := a % 64
    let die := a / 256 % 8
    (Issues s g (.moncfg f) [f.sa, f.sb, f.sd] 1 .supervisor → Drained g →
      ∃ t g', exec (.moncfg f) s = .next t ∧ t.grp s.sched.cur = some g' ∧ NextWord g g' ∧ t.mem = s.mem
        ∧ (bitOf s.dieMask die = true → a = unit + 256 * die → badMonitor x = false →
          SetsReg g g' f.sd 0 ∧ (t.monitor die unit).config = x &&& ~~~(0x4000000000000000 : W64)
            ∧ (x.getLsbD 62 = true → { t.monitor die unit with config := 0 } = {})
            ∧ (x.getLsbD 62 = false → { t.monitor die unit with config := (s.monitor die unit).config } = s.monitor die unit))
        ∧ (bitOf s.dieMask die = true → a ≠ unit + 256 * die ∨ badMonitor x = true →
          SetsReg g g' f.sd 2 ∧ t = s.setGrp s.sched.cur g')
        ∧ (bitOf s.dieMask die = false → SetsReg g g' f.sd 1 ∧ t = s.setGrp s.sched.cur g'))
    ∧ (Issues s g (.monread f) [f.sa, f.sb, f.sd] 1 .supervisor → Drained g →
      let k := x.toNat
      let m := s.monitor die unit
      let value : Nat := if k = 0 then m.min else if k = 1 then m.max else if k = 2 then m.count else if k = 3 then m.config.toNat
        else FMap.get 0 m.bins (k - 4)
      (bitOf s.dieMask die = true → a = unit + 256 * die → k ≤ 35 →
        ∃ g', exec (.monread f) s = .next (s.setGrp s.sched.cur g') ∧ SetsReg g g' f.sd (BitVec.ofNat 64 value) ∧ NextWord g g')
      ∧ (bitOf s.dieMask die = false ∨ a ≠ unit + 256 * die ∨ 35 < k →
        exec (.monread f) s = .next (takeTrap s s.sched.cur { cause := 0x01, detail := 4 } g.pc g.hdr))))
  ∧ ((∀ s die unit value, die < 8 → bitOf s.dieMask die = true → unit < 64 → (s.monitor die unit).on = true → sampledByEvent (s.monitor die unit).src = false →
    ∃ t, exec (.monitorSample die unit value) s = .next t
      ∧ (t.monitor die unit).count = min ((s.monitor die unit).count + 1) (2 ^ 48 - 1)
      ∧ (t.monitor die unit).max = max (s.monitor die unit).max (min value.toNat (2 ^ 32 - 1))
      ∧ (t.monitor die unit).min = min (s.monitor die unit).min (min value.toNat (2 ^ 32 - 1))
      ∧ t.groups = s.groups ∧ t.mem = s.mem)
  ∧ (∀ s die, die < 8 →
    ∃ t, exec (.eccCorrected die) s = .next t ∧ { t with dies := s.dies, draws := s.draws } = s
      ∧ (∀ d, d ≠ die → t.dieAt d = s.dieAt d)
      ∧ ∀ unit, unit < 64 → bitOf s.dieMask die = true →
        let x := (s.monitor die unit).config.toNat
        (x / 2 ^ 63 = 1 ∧ x / 2 ^ 40 % 256 = 0x0B → x / 2 ^ 48 % 256 = 255 → x % 2 ^ 32 = 2 ^ 32 - 1 →
          (t.monitor die unit).count = min ((s.monitor die unit).count + 1) (2 ^ 48 - 1))
        ∧ (x / 2 ^ 63 = 0 ∨ x / 2 ^ 40 % 256 ≠ 0x0B → t.monitor die unit = s.monitor die unit))
  ∧ ∀ s die occupancy, die < 8 → bitOf s.dieMask die = true →
    ∃ t, exec (.congestionPublish die occupancy) s = .next t ∧ (t.dieAt die).congestion = min 7 (occupancy / 8)
      ∧ { t with dies := s.dies, cores := s.cores, draws := s.draws } = s)

/-! Work queues, launches, placement. -/

/-- A write of WPTR (R98, R99): the pointer moves on; a write that lowers it is discarded; one that laps the device stops
the queue as OVERRUN. A queue's reset (R95, R96, R100): it takes its ring, record format (FMT), sizes, priority and
partition from its descriptor, ACTIVE and empty; DISABLED where the descriptor is not valid or not enabled. -/
def Obligations.WorkQueues : Prop :=
  (∀ (s : State) (q : Nat) (v : W64), q < 65536 →
    let u := s.queueAt q
    let lapped : Prop := u.state = .active ∧ 2 ^ u.log2d < v.toNat - u.rptr
    (u.wptr ≤ v.toNat → ¬lapped → exec (.wptrWrite q v) s = .next (s.setQueue q { u with wptr := v.toNat }))
    ∧ (u.wptr ≤ v.toNat → lapped →
      ∃ t, exec (.wptrWrite q v) s = .next t ∧ t.queueAt q = { u with wptr := v.toNat, state := .overrun })
    ∧ (v.toNat < u.wptr → ∃ t, exec (.wptrWrite q v) s = .next t ∧ t.queueAt q = u))
  ∧ (∀ (s : State) (q : Nat), q < 65536 →
    let a := s.qdbase.toNat + 16 * q
    let d0 := Memory.readNat s.mem a 8
    let d1 := Memory.readNat s.mem (a + 8) 8
    namesMemory s.dieMask a = true → namesMemory s.dieMask (a + 8) = true →
    ∃ t, exec (.qreset q) s = .next t
      ∧ (descOk d0 d1 = true → d1 / 2 ^ 31 % 2 = 1 →
        (t.queueAt q).state = .active ∧ (t.queueAt q).rptr = (s.queueAt q).wptr ∧ (t.queueAt q).wptr = (s.queueAt q).wptr
        ∧ (t.queueAt q).rbase = BitVec.signExtend 64 (BitVec.ofNat 57 (d0 / 2 ^ 7 % 2 ^ 50 * 128)) ∧ (t.queueAt q).log2d = d0 % 32
        ∧ (t.queueAt q).lrf128 = decide (d1 / 2 ^ 30 % 2 = 1)
        ∧ (t.queueAt q).part = d1 % 256 ∧ (t.queueAt q).priomin = d1 / 2 ^ 27 % 8 ∧ (t.queueAt q).fetching = false)
      ∧ (descOk d0 d1 = false ∨ d1 / 2 ^ 31 % 2 = 0 → (t.queueAt q).state = .disabled))

/-- A record's way in (R99, R101, R112, R113): its fetch is issued; it arrives, and RPTR moves on; the counters that it
waits for are read again, and it waits for none any more once they are all met at one reading. A record of 64 bytes that
keeps its rules (R102, R106, R108) is validated to the launch that its fields say; one of either length that breaks the
rules of its own dwords is bad. -/
def Obligations.LaunchRecords : Prop :=
  ((∀ s q, let u := s.queueAt q
    s.root.failedStage = 0 → u.state = .active → u.fetching = false → u.rptr < u.wptr → u.wptr - u.rptr ≤ 2 ^ u.log2d →
    Assoc.find? s.fetched q = none → exec (.recordFetch q) s = .next (s.setQueue q { u with fetching := true }))
  ∧ (∀ s q s1 ds, let u := s.queueAt q
    let w : Agent := { unit := unitRecord, a := q, b := u.rptr, part := u.part }
    let size := if u.lrf128 then 128 else 64
    q ≠ noQueue → u.state = .active → u.fetching = true → u.wptr - u.rptr ≤ 2 ^ u.log2d → Assoc.find? s.fetched q = none →
    readDwords s w (u.rbase + BitVec.ofNat 64 (u.rptr % 2 ^ u.log2d * size)) (size / 8) = .ok s1 ds →
    let p : PendingRec := { raw := ds, part := u.part, home := q % 8, least := u.priomin, origin := .queue q u.rptr }
    let s2 := (s1.forget w).setQueue q { u with fetching := false, rptr := u.rptr + 1 }
    let s3 : State := { s2 with fetched := Assoc.put s2.fetched q p }
    exec (.recordArrival q) s = .next ((tryValidate s3 q).getD s3))
  ∧ (∀ s q p a v s1 x, q ≠ noQueue → Assoc.find? s.fetched q = some p → p.record ≠ none → p.failed = none → p.waits = [(a, v)] →
    readVa s p.agent a 8 = .ok s1 x → x < 2 ^ 63 → v ≤ x →
    let s2 := s1.forget p.agent
    exec (.waitCounterReread q) s = .next { s2 with fetched := Assoc.put s2.fetched q { p with waits := [] } })
  ∧ ∀ s q p a v b u s1 x s2 y, q ≠ noQueue → Assoc.find? s.fetched q = some p → p.record ≠ none → p.failed = none → p.waits = [(a, v), (b, u)] →
    readVa s p.agent a 8 = .ok s1 x → x < 2 ^ 63 → readVa s1 p.agent b 8 = .ok s2 y → y < 2 ^ 63 →
    (v ≤ x → u ≤ y →
      let s3 := s2.forget p.agent
      exec (.waitCounterReread q) s = .next { s3 with fetched := Assoc.put s3.fetched q { p with waits := [] } })
    ∧ (x < v ∨ y < u → ∃ t, exec (.waitCounterReread q) s = .next t ∧ (t = s ∨ t = s2.forget p.agent)))
  ∧ (∀ (s : State) (p : PendingRec), let d (k : Nat) : Nat := (p.raw.getD k 0).toNat
    (p.raw.length = 8 → record64Ok p.raw = true →
      ∃ p' r, validate s p = .ok s p' ∧ p'.record = some r ∧ p'.raw = p.raw ∧ p'.part = p.part
        ∧ r.entry = p.raw.getD 1 0 ∧ r.args = p.raw.getD 2 0 ∧ r.nreg = d 3 % 64 ∧ r.vl = d 3 / 2 ^ 15 % 2 ^ 9
        ∧ r.spad = d 3 / 2 ^ 9 % 64 ∧ r.done = p.raw.getD 4 0 ∧ r.cls = d 0 / 2 ^ 7 % 4 ∧ r.l1fuse = bitOf (d 0) 10
        ∧ r.prio = max (d 0 / 2 ^ 4 % 8) p.least ∧ r.part = p.part ∧ r.origin = p.origin
        ∧ p'.waits = (if bitOf (d 0) 12 then [(p.raw.getD 5 0, d 6)] else []))
    ∧ (p.raw.length = 8 → record64Ok p.raw = false → validate s p = .bad s)
    ∧ (p.raw.length = 16 → record128Ok p.raw = false → validate s p = .bad s))

/-- `launch` (R115, R116): the record at s[sa] is read, once the older accesses are performed, and posted to the walker of
the group's die with status 0; status 1 where its launch slots are all taken; an address that is no multiple of 128 is
ILLEGAL with reason 4. Admission (R76, R117, R124, R125): a record that has passed its waits becomes a launch with the
next number, no task placed; one without tasks retires at once; one that no core can take fails with its event. That a
concurrent launch is admitted while another of its partition holds the reservation is the model's choice (log entry 35). -/
def Obligations.LaunchAndAdmission : Prop :=
  (∀ f s g s1 ds, Issues s g (.launch f) [f.sa, f.sd] 1 → Drained g →
    let a := g.reg f.sa.toNat
    let home := g.core / 128
    let w := g.agent s.sched.cur 0 g.nextId g.pc g.hdr
    (a.toNat % 128 = 0 → g.quiet 4 = true → readDwords s w a 16 = .ok s1 ds →
      let s2 := s1.forget w
      let slots := (s2.posted.filter (fun p => p.home = home)).length
      (slots < 64 →
        ∃ g', exec (.launch f) s = .next (({ s2 with posted := s2.posted ++
            [{ raw := ds, part := g.part, home := home, least := g.prio, origin := .group s.sched.cur a g.pc g.hdr }] } :
              State).setGrp s.sched.cur g')
          ∧ SetsReg g g' f.sd 0 ∧ NextOrdered g g')
      ∧ (64 ≤ slots → ∃ g', exec (.launch f) s = .next (s2.setGrp s.sched.cur g') ∧ SetsReg g g' f.sd 1 ∧ NextOrdered g g'))
    ∧ (a.toNat % 128 ≠ 0 → exec (.launch f) s = .next (takeTrap s s.sched.cur { cause := 0x01, detail := 4 } g.pc g.hdr)))
  ∧ (∀ s die q p r, Assoc.wf s.launches = true → s.root.failedStage = 0 → s.walkerRoom die = true →
    Assoc.find? s.fetched q = some p → q ≠ noQueue →
    s.fetched.filter (fun x => x.2.ready die) = [(q, p)] → s.posted.filter (fun x => x.ready die) = [] → p.record = some r →
    (admissible s r = true → 0 < r.lnr.total →
      ∃ t l, exec (.admission die) s = .next t ∧ t.nextLaunch = s.nextLaunch + 1 ∧ t.launchAt s.nextLaunch = some l
        ∧ l.record = r ∧ l.total = (r.lnr.levels.map LnrLevel.trips).prod ∧ l.placed = 0 ∧ l.retired = 0
        ∧ Assoc.find? t.fetched q = none ∧ t.groups = s.groups)
    ∧ (admissible s r = true → r.lnr.total = 0 → r.done = 0 →
      ∃ t, exec (.admission die) s = .next t ∧ t.nextLaunch = s.nextLaunch + 1 ∧ t.launchAt s.nextLaunch = none
        ∧ Assoc.find? t.fetched q = none ∧ t.groups = s.groups ∧ t.mem = s.mem)
    ∧ (admissible s r = false → r.done = 0 → p.done = 0 →
      ∃ t, exec (.admission die) s = .next t ∧ t.nextLaunch = s.nextLaunch ∧ t.launches = s.launches
        ∧ Assoc.find? t.fetched q = none))

/-- Placing (R118, R122): the next task of a launch that is alone in the machine gets the slot and granules found on the
first core that can hold it, and the context of a task at its start. A task's context at its start (R32, R33): the
preloaded registers, every other register zero, m0 the first VL elements, VL and VTAIL the declared VL, the program
counter at the entry clause; the level is user by the model's reading (log entry 12). A saved group of the parallel class
that has waited 2^20 cycles places as priority 0 (R127); the write-back of a cluster that fuses or unfuses ends (R128). -/
def Obligations.Tasks : Prop :=
  (∀ s n l c k b, s.launches = [(n, l)] → s.saved = [] → l.record.cls = 1 → l.suspended = false → l.placed < l.total →
    l.holds = false → findRoom s (l.record.shape n) l.cursor = some (c, k, b) →
    ∃ t l', exec (.taskPlace l.record.home) s = .next t ∧ t.grp (c * 16 + k) = some (newGroup n l l.next c k (4096 * b))
      ∧ t.launchAt n = some l' ∧ l'.placed = l.placed + 1 ∧ l'.next = l.next + 1 ∧ l'.cursor = some c
      ∧ t.mem = s.mem ∧ ∀ u, u ≠ c * 16 + k → t.grp u = s.grp u)
  ∧ (∀ n l ordinal core slot base, let g := newGroup n l ordinal core slot base
    let r := l.record
    (∀ k, 1 ≤ k → k ≤ 4 → g.reg k = (r.lnr.indices ordinal).getD (k - 1) 0) ∧ g.reg 5 = BitVec.ofNat 64 ordinal
    ∧ g.reg 6 = r.args ∧ g.reg 7 = BitVec.ofNat 64 base ∧ g.reg 8 = BitVec.ofNat 64 slot ∧ (∀ k, 9 ≤ k → g.reg k = 0)
    ∧ (∀ e, e < 2048 → (g.mask 0).getLsbD e = decide (e < r.vl)) ∧ (∀ k, 1 ≤ k → g.mask k = 0) ∧ (∀ x k, g.word x k = 0)
    ∧ (∀ i row col, g.tile i row col = 0) ∧ (∀ k, g.flag k = 0) ∧ (∀ p, g.counter p = 0) ∧ g.vl = r.vl ∧ g.vtail = r.vl
    ∧ g.vconf = r.vconf ∧ g.xflags = 0 ∧ g.allocth = 0x00010000 ∧ g.rankcfg = 0 ∧ g.pc = r.entry ∧ g.hdr = r.entry
    ∧ g.level = .user ∧ g.run = .running ∧ g.tcause = 0)
  ∧ ((∀ s n o v, s.saved.find? (fun v => v.launch = n && v.ordinal = o) = some v → v.cls = 1 → v.queued = true →
    v.promoted = false → v.since + 2 ^ 20 ≤ s.cycle →
    exec (.priorityPromotion n o) s = .next { s with saved := s.saved.replace v { v with promoted := true } })
  ∧ ∀ s k, (s.clusterAt k).busy = true →
    exec (.fuseWriteBackComplete k) s = .next (s.setCluster k { s.clusterAt k with busy := false }))

/-! Saving, retiring, scrubbing, tearing down. -/

/-- Halting and saving (R346, R427, R428, R431, R443): a group asked to halt rolls back to VCOMMIT; once its committed
work is done, and no copy of its own uses its scratchpad, its area is written, the device keeps what it needs to place it
again, and it is gone from its core. That save areas are device physical addresses, and what the device keeps, is the
model's choice (log entry 20). The context words (R437-R440): a save of a parked group is asked for, and the word ends
with status 0 once it is made; the area of one that is saved already moves; a suspended launch goes on; an area that the
device holds as saved is queued; a scrub is asked for. How the word waits for its save, and that an area is a device
physical address, is the model's choice (log entry 20). -/
def Obligations.SavedContexts : Prop :=
  ((∀ s tag g, s.grp tag = some g → g.halt = true → g.run = .running → g.midWord s tag = false →
    (∀ e rest, g.vq = e :: rest → e.trap = none) →
    ∃ t g', exec (.groupHalt tag) s = .next t ∧ t.grp tag = some g' ∧ g'.run = .halted ∧ g'.halt = false ∧ g'.pc = g.vcommit
      ∧ g'.hdr = g.vcommitHdr ∧ g'.vq = [] ∧ g'.clause = [] ∧ g'.partly = [] ∧ g'.arrived = none ∧ t.mem = s.mem)
  ∧ ∀ s tag g r, s.grp tag = some g → g.save = some r → g.run = .halted ∨ (∃ k, g.run = .parked k) → g.settledAll = true →
    g.copying s = false →
    ∃ t v, exec (.saveComplete tag) s = .next t ∧ t.grp tag = none ∧ t.mem = Memory.writeBytes s.mem r.area (areaBytes s g)
      ∧ t.saved = s.saved ++ [v] ∧ v.launch = g.launch ∧ v.ordinal = g.ordinal ∧ v.area = r.area ∧ v.queued = r.queued)
  ∧ ((∀ (f : FS) s g t h, Issues s g (.ctxsave f) [f.sa, f.sb, f.sd] 1 .supervisor → Drained g →
    let token := (g.reg f.sa.toNat).toNat
    let area := (g.reg f.sb.toNat).toNat
    token < 2 ^ 32 →
    (g.saveWait = none → s.holderOf token = some (t, h) → t ≠ s.sched.cur → area % 4096 = 0 → area ≠ 0 →
      areaNames s.dieMask area h.areaSize = true →
      exec (.ctxsave f) s = .next (((s.freeSlot h.part (h.save.bind (fun r => r.slot))).setGrp t
        { h with save := some { area := area, slot := none, queued := false } }).setGrp s.sched.cur { g with saveWait := some token }))
    ∧ (g.saveWait = none → s.holderOf token = none → s.savedHolder token = none → Answers (.ctxsave f) s g f.sd s 1)
    ∧ (∀ v, g.saveWait = none → s.holderOf token = none → s.savedHolder token = some v → area % 4096 = 0 → area ≠ 0 →
      areaNames s.dieMask area v.areaSize = true →
      Answers (.ctxsave f) s g f.sd
        ({ s.freeSlot v.part v.slot with
            mem := Memory.writeBytes s.mem area (Memory.readBytes s.mem v.area v.areaSize)
            saved := s.saved.replace v { v with area := area, slot := none, queued := false } } : State) 0)
    ∧ (∀ k, g.saveWait = some k → s.toSave token = false → s.savedIn token area = true →
      ∃ g', exec (.ctxsave f) s = .next (s.setGrp s.sched.cur g') ∧ SetsReg g g' f.sd 0 ∧ g'.saveWait = none
        ∧ NextWord g { g' with saveWait := g.saveWait }))
  ∧ (∀ (f : FS) s g n l, Issues s g (.ctxload f) [f.sa, f.sd] 1 .supervisor → Drained g →
    let a := (g.reg f.sa.toNat).toNat
    a = 2 ^ 63 + a % 2 ^ 32 → s.launchNamed (a % 2 ^ 32) = some (n, l) → l.suspended = true →
    ∃ t g' l', exec (.ctxload f) s = .next t ∧ n % 2 ^ 32 = a % 2 ^ 32 ∧ t.launchAt n = some l' ∧ l'.suspended = false ∧ t.grp s.sched.cur = some g'
      ∧ g'.reg f.sd.toNat = 0 ∧ t.mem = s.mem)
  ∧ (∀ (f : FS) s g v, Issues s g (.ctxload f) [f.sa, f.sd] 1 .supervisor → Drained g →
    let a := (g.reg f.sa.toNat).toNat
    let n := areaDword s a 0x18
    a < 2 ^ 63 → a % 4096 = 0 → areaOk s a = true → s.launchNamed n ≠ none →
    s.saved.find? (fun v => v.launch % 2 ^ 32 = n && v.ordinal = areaDword s a 0x20 && !v.queued) = some v → v.slot = none →
    Answers (.ctxload f) s g f.sd { s with saved := s.saved.replace v (v.fromArea s a) } 0)
  ∧ ∀ (f : FS) s g, Issues s g (.scrub f) [f.sa, f.sb, f.sd] 1 .supervisor → Drained g →
    let a := (g.reg f.sa.toNat).toNat
    (a < 1024 → s.lanes a ≠ 0 → (s.coreAt a).scrub = none →
      ∃ b, b.counter = g.reg f.sb.toNat ∧ b.part = g.part
        ∧ Answers (.scrub f) s g f.sd (s.setCore a { s.coreAt a with scrub := some b }) 0)
    ∧ (a < 1024 → s.lanes a = 0 → Answers (.scrub f) s g f.sd s 1)
    ∧ (1024 ≤ a → a < 2 ^ 62 → Answers (.scrub f) s g f.sd s 3))

/-- Retirement (R441, R442): a task that has ended, no copy of its own using its scratchpad, leaves its core and is
counted; a launch whose tasks have all retired and been scrubbed retires, its completion counter raised by one. Scrubbing
and changes of a core's partition (R130, R444, R445): a released context's scratchpad is zero and its resources are free
once the scrub is done; a change waits for the core to be empty. -/
def Obligations.RetirementAndScrubbing : Prop :=
  ((∀ s tag g l, s.grp tag = some g → g.run = .ended → g.copying s = false → s.launchAt g.launch = some l →
    ∃ t l', exec (.taskRetire tag) s = .next t ∧ t.grp tag = none ∧ t.launchAt g.launch = some l' ∧ l'.retired = l.retired + 1
      ∧ l'.error = l.error ∧ t.mem = s.mem)
  ∧ (∀ s n l, s.launchAt n = some l → l.over s n = true → l.record.done = 0 →
    ∃ t, exec (.launchRetire n) s = .next t ∧ t.launchAt n = none ∧ t.mem = s.mem)
  ∧ ∀ s n l lf pa s1, s.launchAt n = some l → l.over s n = true → l.record.done ≠ 0 →
    translate s l.record.part l.record.done .atomic = (.ok lf (.phys pa), s1) →
    let old := Memory.readNat s1.mem pa 8
    ∃ t, exec (.launchRetire n) s = .next t ∧ t.launchAt n = none
      ∧ Memory.readNat t.mem pa 8 = (old + 1) % 2 ^ 63 + (if l.error = true ∨ old / 2 ^ 63 = 1 then 2 ^ 63 else 0))
  ∧ ((∀ s c, c < 1024 → (s.coreAt c).releases ≠ [] → (s.coreAt c).pending = none → (s.coreAt c).scrub = none →
    ∃ t, exec (.scrubComplete c) s = .next t ∧ t.coreAt c = { s.coreAt c with releases := [] } ∧ t.mem = s.mem
      ∧ ∀ h ∈ (s.coreAt c).releases, ∀ off, 4096 * h.granule ≤ off → off < 4096 * (h.granule + h.granules) →
        Memory.read t.spad (131072 * c + off) = 0)
  ∧ (∀ s c v, c < 1024 → exec (.pcoreWrite c v) s = .next (s.setCore c { s.coreAt c with pending := some v.toNat }))
  ∧ ∀ s c p, c < 1024 → (s.coreAt c).releases = [] → (s.coreAt c).pending = some p → (s.coreAt c).scrub = none →
    s.groupsOf c = [] → s.reservedAny c = false →
    ∃ t, exec (.scrubComplete c) s = .next t ∧ (t.coreAt c).part = p ∧ (t.coreAt c).pending = none ∧ t.mem = s.mem)

/-- The posting of an event record (R420-R423): the 64 bytes of the record go to the next slot of its partition's event
ring, which for the supervisor's lies in host memory, WIDX moves on and the message is raised; where the ring is disabled
or full, or its slot does not translate, the event is dropped and counted. RESUME, TERMINATE and soft errors (R424-R426,
R438): the parked group that holds the token runs again or is terminated; one of a suspended launch is held, and one that
is to be saved acts when it is placed again; a write that names no such group posts BADRESUME; a group hit by an
uncorrectable error is terminated, and SOFTERR posted. Teardown of a partition (R446, R447): a GO write starts it where no
core belongs to the partition, no change of a core's partition is pending, its root is not valid and none is under way,
and else posts TEARDOWN with DETAIL 1 and has no effect; from then on the listed frames read as zero or as what is written
there later, and no other byte changes; its event says how many entries were no frames. That the list is read at the GO
write is the model's choice (log entry 35). -/
def Obligations.ResumeTerminateTeardown : Prop :=
  (∀ (s : State) (r : Report),
    let u := s.partAt r.part
    let t := postEvent s r
    let v := t.partAt r.part
    let n := u.eqbase.toNat % 32
    let record := layout [(1, r.kind), (1, r.cause), (2, r.detail), (1, r.part), (1, r.plev), (2, r.gtag), (4, r.token), (4, r.launch),
      (8, r.pc.toNat), (8, r.hdr.toNat), (8, r.addr.toNat), (8, r.a0), (8, r.a1), (8, s.cycle % 2 ^ 64)]
    let slot := u.eqbase.toNat / 64 % 2 ^ 51 * 64 + 64 * (u.eqwidx % 2 ^ n)
    let room : Prop := 4 ≤ n ∧ n ≤ 16 ∧ (u.eqwidx + 2 ^ 32 - u.eqridx) % 2 ^ 32 < 2 ^ n
    let posted (m : Memory) (pa : Nat) : Prop := t.mem = Memory.writeBytes m pa record ∧ v.eqwidx = (u.eqwidx + 1) % 2 ^ 32
      ∧ v.eqovfl = u.eqovfl ∧ (s.msixUnmasked.contains (2 * r.part + 1) = true → t.msixSent = s.msixSent ++ [2 * r.part + 1])
    let dropped (m : Memory) : Prop := t.mem = m ∧ v.eqwidx = u.eqwidx ∧ v.eqovfl = min (u.eqovfl + 1) (2 ^ 32 - 1)
    u.events = [] →
    (¬room → dropped s.mem)
    ∧ (room → r.part = 255 → posted s.mem (2 ^ 49 + slot))
    ∧ (room → r.part ≠ 255 → ∀ l pa s1, translate s r.part (BitVec.ofNat 64 slot) .write = (.ok l (.phys pa), s1) → posted s1.mem pa)
    ∧ (room → r.part ≠ 255 → ∀ d s1, translate s r.part (BitVec.ofNat 64 slot) .write = (.fault d, s1) → dropped s1.mem))
  ∧ ((∀ s (x : W64) tag g, s.holderOf (x.toNat % 2 ^ 32) = some (tag, g) →
    (g.save = none →
      (x.toNat < 2 ^ 32 → exec (.resume x) s = .next (s.setGrp tag
        { g with run := if s.suspends g.launch = true then .halted else .running, token := 0 }))
      ∧ (x.toNat / 2 ^ 32 = 2 ^ 30 → exec (.terminate x) s = .next (s.setGrp tag { g with run := .terminated, token := 0 })))
    ∧ ∀ r, g.save = some r →
      (x.toNat < 2 ^ 32 → exec (.resume x) s = .next (s.setGrp tag { g with save := some { r with act := some 0 } }))
      ∧ (x.toNat / 2 ^ 32 = 2 ^ 30 → exec (.terminate x) s = .next (s.setGrp tag { g with save := some { r with act := some 1 } })))
  ∧ (∀ s (x : W64), 2 ^ 63 ≤ x.toNat ∨ x.toNat / 2 ^ 32 % 2 ^ 30 ≠ 0
      ∨ (s.holderOf (x.toNat % 2 ^ 32) = none ∧ s.savedHolder (x.toNat % 2 ^ 32) = none) →
    exec (.resume x) s = .next (postEvent s { cause := 0x24, part := 255, a0 := x.toNat }))
  ∧ ∀ s tag g k, s.grp tag = some g → 1 ≤ k → k ≤ 5 → g.run ≠ .ended → g.run ≠ .terminated →
    ∃ u g', exec (.softError tag k) s =
        .next (postEvent u { cause := 0x25, detail := k, part := g.part, gtag := tag, launch := g.launch % 2 ^ 32 })
      ∧ u.grp tag = some g' ∧ g'.run = .terminated ∧ g'.vq = [] ∧ u.mem = s.mem ∧ u.parts = s.parts)
  ∧ ((∀ s (x : W64), let p := x.toNat % 256
    let n := x.toNat / 2 ^ 8 % 2 ^ 32
    let free : Prop := s.teardown.busy = false ∧ s.cores.any (fun c => c.2.pending.isSome) = false
      ∧ (upTo Config.cores).any (fun c => (s.coreAt c).part = p) = false ∧ (s.partAt p).root.getLsbD 63 = false
      ∧ x.toNat / 2 ^ 40 % 2 ^ 22 = 0
    let at_ (j : Nat) : Nat := s.teardown.flist.toNat + 8 * j
    let entry (j : Nat) : Nat := Memory.readNat s.mem (at_ j) 8
    let frame (j : Nat) : Prop := j < n ∧ namesMemory s.dieMask (at_ j) = true ∧ entry j % 2 ^ 16 = 0 ∧ entry j < 2 ^ 34
      ∧ bitOf s.dieMask (entry j / 2 ^ 31) = true
    (x.getLsbD 63 = false → exec (.teardown x) s = .next { s with teardown := { s.teardown with part := p, nfr := n } })
    ∧ (x.getLsbD 63 = true → p ≠ 255 → ¬free → exec (.teardown x) s = .next (postEvent s { cause := 0x27, detail := 1, part := 255 }))
    ∧ (x.getLsbD 63 = true → p ≠ 255 → free →
      ∃ t, exec (.teardown x) s = .next t ∧ t.teardown.busy = true ∧ t.teardown.part = p ∧ t.teardown.nfr = n
        ∧ ({ t with mem := s.mem, teardown := s.teardown } : State) = s
        ∧ (∀ a, a ∈ t.teardown.frames ↔ ∃ j, frame j ∧ a = 2 ^ 48 + entry j)
        ∧ t.teardown.skipped + t.teardown.frames.length = n
        ∧ (∀ j k, frame j → k < 65536 → Memory.read t.mem (2 ^ 48 + entry j + k) = 0)
        ∧ ∀ a, (∀ j, frame j → a < 2 ^ 48 + entry j ∨ 2 ^ 48 + entry j + 65536 ≤ a) → Memory.read t.mem a = Memory.read s.mem a))
  ∧ ∀ s, s.teardown.busy = true →
    ∃ u, exec .teardownDone s = .next (postEvent u { cause := 0x27, detail := 0, part := 255, a0 := s.teardown.skipped })
      ∧ u.teardown.busy = false ∧ u.parts = s.parts
      ∧ ∀ a, Memory.read u.mem a = Memory.read s.mem a
        ∨ Memory.read u.mem a = 0 ∧ ∃ pa ∈ s.teardown.frames, pa ≤ a ∧ a < pa + 65536)

/-! The host's registers, translation requests, migration, leases, checkpoints. -/

/-- Writes and reads by the host (R25, R28, R97, R105, R129, R130, R303, R321, R358, R420, R421, R430, R479): a read index
that does not lie ahead is taken, a read of the overflow count clears it, an unmasked vector sends the message that waits;
a register takes its writable bits and reads as it holds them, the capability window reads as the list, and an offset
without a register discards a write and reads as zero; a posted write stores its bytes; a reset sets every register and
keeps memory. The model's own: what a reset keeps (log entry 22), PCORE of a core whose change is pending reads as it
still is (log entry 30), QDBASE keeps every bit written (log entry 35). -/
def Obligations.HostRegisters : Prop :=
  (∀ s p (v : W64), p < 255 → (s.partAt p).waiting = [] →
    let u := s.partAt p
    let x := v.toNat % 2 ^ 32
    (aheadOf u.fqwidx x = false → exec (.fqridxWrite p v) s = .next (s.setPart p { u with fqridx := x }))
    ∧ (aheadOf u.fqwidx x = true → exec (.fqridxWrite p v) s = .next s)
    ∧ exec (.fqbaseWrite p v) s = .next (s.setPart p { u with fqbase := v &&& 0x01FFFFFFFFFFFFDF }))
  ∧ (∀ s p (v : W64), p ≤ 255 →
    let u := s.partAt p
    let x := v.toNat % 2 ^ 32
    (aheadOf u.eqwidx x = false → exec (.eqridxWrite p v) s = .next (s.setPart p { u with eqridx := x }))
    ∧ (aheadOf u.eqwidx x = true → exec (.eqridxWrite p v) s = .next s)
    ∧ exec (.eqovflRead p) s = .next (s.setPart p { u with eqovfl := 0 }))
  ∧ (∀ s v, v < 512 → v ∉ s.msixUnmasked →
    ∃ t, exec (.msiXUnmask v) s = .next t ∧ t.msixUnmasked = s.msixUnmasked ++ [v] ∧ t.mem = s.mem
      ∧ (v ∈ s.msixPending → t.msixSent = s.msixSent ++ [v]) ∧ (v ∉ s.msixPending → t.msixSent = s.msixSent))
  ∧ (∀ s p (v : W64), p < 255 →
    let u := s.partAt p
    let writes (off : Nat) (t : State) : Prop := exec (.registerWrite 0 off v) s = .next t
    writes (0x30900 + 2 * p) (s.setPart p { u with share := v.toNat % 2 ^ 9 })
    ∧ writes (0x31000 + 8 * p) (s.setPart p { u with root := v &&& 0x800FFFFFFFEFFFFF })
    ∧ writes (0x33000 + 8 * p) (s.setPart p { u with pftag := v.toNat % 2 ^ 16 })
    ∧ writes (0x38000 + 8 * p) (s.setPart p { u with savePool := v &&& 0x000FFFFFFFFCFFFF })
    ∧ writes (0x34000 + 64 * p + 0x30) (s.setPart p { u with tvec := v })
    ∧ writes 0x20000 { s with qdbase := v } ∧ writes 0x30800 { s with bandwidth := v &&& 0x800000000001FFFF })
  ∧ (∀ s off (v : W64), 0x40000 ≤ off → exec (.registerWrite 0 off v) s = .next s ∧ hostRead s 0 off = 0)
  ∧ (∀ s p, p < 255 →
    let u := s.partAt p
    hostRead s 0 (0x30900 + 2 * p) = BitVec.ofNat 64 u.share ∧ hostRead s 0 (0x31000 + 8 * p) = u.root
    ∧ hostRead s 0 (0x33000 + 8 * p) = BitVec.ofNat 64 u.pftag ∧ hostRead s 0 (0x38000 + 8 * p) = u.savePool
    ∧ hostRead s 0 (0x34000 + 64 * p) = u.fqbase ∧ hostRead s 0 (0x34008 + 64 * p) = BitVec.ofNat 64 u.fqwidx
    ∧ hostRead s 0 (0x34010 + 64 * p) = BitVec.ofNat 64 u.fqridx ∧ hostRead s 0 (0x34018 + 64 * p) = u.eqbase
    ∧ hostRead s 0 (0x34020 + 64 * p) = BitVec.ofNat 64 u.eqwidx ∧ hostRead s 0 (0x34028 + 64 * p) = BitVec.ofNat 64 u.eqridx
    ∧ hostRead s 0 (0x34030 + 64 * p) = u.tvec ∧ hostRead s 0 (0x34038 + 64 * p) = BitVec.ofNat 64 u.eqovfl)
  ∧ (∀ s, hostRead s 0 0x20000 = s.qdbase ∧ hostRead s 0 0x30800 = s.bandwidth ∧ hostRead s 0 0x32000 = s.invalReg
    ∧ hostRead s 0 0x39008 = s.teardown.flist
    ∧ (∀ off, off < 0x10000 → hostRead s 0 (0x1000 + off) = BitVec.ofNat 64 (capDword s off))
    ∧ (∀ c, c < 1024 → hostRead s 0 (0x30000 + c) = BitVec.ofNat 64 (s.coreAt c).part))
  ∧ (∀ s q off, q < 65536 → off < 4096 →
    let u := s.queueAt q
    hostRead s 2 (4096 * q + off) =
      if off = 0 then BitVec.ofNat 64 u.wptr else if off = 8 then BitVec.ofNat 64 u.rptr
      else if off = 16 ∧ s.root.failedStage = 0 then BitVec.ofNat 64 u.state.num else 0)
  ∧ (∀ s (a : W64) data,
    ∃ t, exec (.hostPostedWrite a data) s = .next t ∧ { t with mem := s.mem } = s
      ∧ (∀ k, k < data.length → namesMemory s.dieMask (a.toNat + k) = true → Memory.read t.mem (a.toNat + k) = data.getD k 0)
      ∧ ∀ b, b < a.toNat ∨ a.toNat + data.length ≤ b ∨ namesMemory s.dieMask b = false → Memory.read t.mem b = Memory.read s.mem b)
  ∧ ∀ s, ∃ t, exec .deviceReset s = .next t ∧ t.cycle = 0 ∧ t.groups = [] ∧ t.launches = [] ∧ t.queues = [] ∧ t.parts = []
      ∧ t.migrations = [] ∧ t.leases = [] ∧ t.root = State.reset.root ∧ t.mem = s.mem ∧ t.spad = s.spad
      ∧ t.dieMask = s.dieMask

/-- Invalidation and the host's translations (R303, R308, R310): an invalidation ends once no access under what it removes
is left, and nothing that it names is cached then; a granted translation is cached where the tables still leave the
address to the host, a refused one is asked for as a page. -/
def Obligations.HostTranslations : Prop :=
  (∀ s (x : W64),
    let y := x &&& 0x7FE001FFFFFFFFFF
    (x.getLsbD 63 = true → s.invalidation = none →
      exec (.tlbInvalidate x) s = .next { s with invalReg := y, invalidation := some y })
    ∧ (x.getLsbD 63 = true → s.invalidation ≠ none → exec (.tlbInvalidate x) s = .next { s with invalDrop := true })
    ∧ (x.getLsbD 63 = false → exec (.tlbInvalidate x) s = .next { s with invalReg := y }))
  ∧ (∀ s x, s.invalidation = some x → s.invalidationWaits x = false →
    ∃ t, exec .invalidationComplete s = .next t ∧ t.invalidation = none ∧ t.mem = s.mem
      ∧ ∀ c, c ∈ t.cached ↔ c ∈ s.cached ∧ ¬(c.part = invalPart x ∧ invalidates x c = true))
  ∧ (∀ s a r, answered s a false = some r →
    (a.granted = true → walk s a.part a.va ≠ .host →
      exec (.atsTranslationResponse a) s = .next (s.setRequest r none))
    ∧ (a.granted = true → walk s a.part a.va = .host →
      ∃ t c, exec (.atsTranslationResponse a) s = .next t ∧ r ∉ t.hostRequests ∧ c ∈ t.cached ∧ c.part = a.part
        ∧ c.vpage = a.va.toNat / 2 ^ 16 ∧ c.leaf = none ∧ t.mem = s.mem)
    ∧ (a.granted = false → exec (.atsTranslationResponse a) s = .next (s.setRequest r (some { r with pri := true }))))
  ∧ ∀ s a r, answered s a true = some r →
    exec (.pageRequestResponse a) s =
      .next (s.setRequest r (some (if a.granted then { r with pri := false } else { r with failed := true })))

/-- `tierq` (R341, R342): the fields of the leaf that the tables hold, or TIER 111 where none of the partition is found.
`pmigrate` (R353) and the migration that it starts (R315, R316, R319, R423): its statuses, the record it writes, and MIG
:= 01 in the entry; unit P copied to the new frame; with the last unit the entry names the new frame, its history takes
the move or the page is pinned, and the events are posted (`EventRecords` says what a post writes); a stall keeps P and
posts its own. A record that names no memory is answered with a status that the manual does not state (log entry 16, tag
9). -/
def Obligations.TiersAndMigration : Prop :=
  (∀ (f : FS) s g w s1, Issues s g (.tierq f) [f.sa, f.sd] 1 → g.loads = [] →
    findLeaf s g.part (g.reg f.sa.toNat + BitVec.ofInt 64 f.imm.toInt) = (w, s1) →
    ∃ g1 g2 x, exec (.tierq f) s = .next (s1.setGrp s.sched.cur g1)
      ∧ exec (.scalarLoadReturn s.sched.cur) (s1.setGrp s.sched.cur g1) = .next (s1.setGrp s.sched.cur g2)
      ∧ SetsReg g g2 f.sd (BitVec.ofNat 64 x) ∧ NextWord g { g2 with loads := g.loads } ∧ x < 2 ^ 64
      ∧ (∀ l, w = .leaf l → l.part = g.part →
        let kind := (l.place s1).1
        x / 2 ^ 63 = 1
          ∧ x / 2 ^ 60 % 8 = (if kind = 0 then (if (l.place s1).2 / 2 ^ 31 = g.core / 128 then 0 else 1) else kind)
          ∧ x / 2 ^ 58 % 4 = l.mig ∧ x / 2 ^ 56 % 4 = (if l.level = 1 then 2 else if l.level = 2 then 1 else 0)
          ∧ (x / 2 ^ 53 % 2 = 1 ↔ l.ex = true) ∧ (x / 2 ^ 52 % 2 = 1 ↔ l.wr = true) ∧ (x / 2 ^ 51 % 2 = 1 ↔ l.rd = true)
          ∧ x / 2 ^ 32 % 2 ^ 16 = (if kind = 3 then l.lease else 0)
          ∧ x % 2 ^ 32 = (if l.mig = 1 then recordDword s1 l.frame 2 % 2 ^ 32 else 0))
      ∧ (∀ l, w = .leaf l → l.part ≠ g.part → x = 7 * 2 ^ 60)
      ∧ (w = .host → x = 7 * 2 ^ 60 + 2 ^ 54) ∧ ∀ d, w = .fault d → x = 7 * 2 ^ 60)
  ∧ ((∀ (f : FC) s g, Issues s g (.pmigrate f) [f.sa, f.sb, f.sc, f.sd] 1 .supervisor → Drained g →
    let va := g.reg f.sa.toNat
    let b := (g.reg f.sb.toNat).toNat
    let c := (g.reg f.sc.toNat).toNat
    let nframe := b / 2 ^ 16 % 2 ^ 36 * 2 ^ 16
    let ntier := b / 2 ^ 60 % 8
    let record := c / 2 ^ 6 % 2 ^ 46 * 64
    let part := c / 2 ^ 56 % 2 ^ 8
    let w := walk s part va
    ((∀ l, w ≠ .leaf l) → Answers (.pmigrate f) s g f.sd s 3)
    ∧ ∀ l, w = .leaf l →
      (l.mig = 2 → Answers (.pmigrate f) s g f.sd s 1) ∧ (l.mig = 1 → Answers (.pmigrate f) s g f.sd s 2)
      ∧ (l.mig = 0 → (l.part ≠ part ∨ l.tier = 3) → Answers (.pmigrate f) s g f.sd s 3)
      ∧ (l.mig = 0 → l.part = part → l.tier ≠ 3 →
        let legal : Prop := nframe % pageBytes l.level = 0 ∧ (ntier = 0 ∨ ntier = 2 ∨ ntier = 4)
        (¬legal → Answers (.pmigrate f) s g f.sd s 4)
        ∧ (legal → namesMemory s.dieMask record = false → ∃ x, Answers (.pmigrate f) s g f.sd s x)
        ∧ (legal → namesMemory s.dieMask record = true → ∀ e, l.addr = some e → e + 32 ≤ record ∨ record + 64 ≤ e →
          ∃ t m, Answers (.pmigrate f) s g f.sd t 0 ∧ t.migrations = s.migrations ++ [m] ∧ m.record = record ∧ m.leaf = e
            ∧ Memory.readNat t.mem record 8 = l.tier * 2 ^ 58 + l.frame
            ∧ Memory.readNat t.mem (record + 8) 8 = ntier * 2 ^ 58 + nframe ∧ Memory.readNat t.mem (record + 16) 8 = 0
            ∧ Memory.readNat t.mem e 8 / 2 ^ 56 % 4 = 1 ∧ Memory.readNat t.mem (e + 8) 8 = record
            ∧ (∀ k, 32 ≤ k → k < 64 → Memory.read t.mem (record + k) = 0)
            ∧ ∀ a, (a < record ∨ record + 64 ≤ a) → (a < e ∨ e + 16 ≤ a) → Memory.read t.mem a = Memory.read s.mem a)))
  ∧ ∀ s r m, s.migrations.find? (fun m => m.record = r) = some m →
    let p := m.progress s
    let event (detail n : Nat) : Report := { cause := 0x21, detail := detail, part := m.part, addr := m.va, a0 := n }
    let history (k : Nat) : Nat := Memory.readNat s.mem (m.leaf + 8 * k) 8
    let now := s.cycleReg / 1024 % 2 ^ 21
    let pins : Prop := history 3 % 4 = 3 ∧ (now + 2 ^ 21 - history 2 / 2 ^ 42 % 2 ^ 21) % 2 ^ 21 < 65536
    let moved (u : State) : Prop :=
      (∀ n ∈ u.migrations, n.record ≠ r) ∧ Memory.readNat u.mem (m.leaf + 8) 8 = recordFrame (recordDword s r 1)
        ∧ Memory.readNat u.mem m.leaf 8 / 2 ^ 58 % 8 = recordTier (recordDword s r 1)
        ∧ (pins → Memory.readNat u.mem m.leaf 8 / 2 ^ 56 % 4 = 2 ∧ Memory.readNat u.mem (m.leaf + 16) 8 = history 2
          ∧ Memory.readNat u.mem (m.leaf + 24) 8 = history 3)
        ∧ (¬pins → Memory.readNat u.mem m.leaf 8 / 2 ^ 56 % 4 = (if m.pinned = true then 2 else 0)
          ∧ Memory.readNat u.mem (m.leaf + 16) 8 = now + 2 ^ 21 * (history 2 % 2 ^ 42)
          ∧ Memory.readNat u.mem (m.leaf + 24) 8 = history 3 / 4 * 4 + min 3 (history 3 % 4 + 1))
    let posts (u w : State) : Prop :=
      (¬pins → w = u)
        ∧ (pins → ∃ v, v = postEvent u { cause := 0x22, part := m.part, addr := m.va } ∧ { w with dies := v.dies, draws := v.draws } = v)
    (m.stalled s = false → m.overdue s = false → m.stale s = false → s.passReads r p = false →
      ∀ a b, framePlace s.dieMask m (recordDword s r 0) (256 * p) = .here a →
      framePlace s.dieMask m (recordDword s r 1) (256 * p) = .here b →
      (256 * (p + 1) < m.size → r + 24 ≤ b ∨ b + 256 ≤ r + 16 →
        ∃ t, exec (.migrationUnitCopy r) s = .next t ∧ Memory.readNat t.mem (r + 16) 8 = p + 1
          ∧ (∀ k, k < 256 → Memory.read t.mem (b + k) = Memory.read s.mem (a + k))
          ∧ ∀ x, (x < b ∨ b + 256 ≤ x) → (x < r + 16 ∨ r + 24 ≤ x) → Memory.read t.mem x = Memory.read s.mem x)
      ∧ (256 * p < m.size → m.size ≤ 256 * (p + 1) → r + 24 ≤ b ∨ b + 256 ≤ r → m.leaf + 32 ≤ b ∨ b + 256 ≤ m.leaf →
        m.leaf + 32 ≤ r ∨ r + 24 ≤ m.leaf → m.lease = none →
        ∃ t u w, exec (.migrationUnitCopy r) s = .next t
          ∧ { t with groups := w.groups } = postEvent w (event 0 ((p + 1) % 2 ^ 32)) ∧ posts u w ∧ moved u
          ∧ Memory.readNat u.mem (r + 16) 8 = p + 1
          ∧ ∀ k, k < 256 → Memory.read u.mem (b + k) = Memory.read s.mem (a + k)))
    ∧ (m.stalled s = false → m.overdue s = false → m.size ≤ 256 * p → m.lease = none →
      ∃ t u w, exec (.migrationUnitCopy r) s = .next t
        ∧ { t with groups := w.groups } = postEvent w (event 0 p) ∧ posts u w ∧ moved u)
    ∧ (m.stalled s = false → 256 * p < m.size → m.stale s = false →
      ∃ u, Memory.readNat u.mem (r + 16) 8 = p + 2 ^ 32
        ∧ (∀ x, x < r + 16 ∨ r + 24 ≤ x → Memory.read u.mem x = Memory.read s.mem x)
        ∧ exec (.migrationStall r) s = .next (if m.lease = none then postEvent u (event 1 p) else u)))

/-- The lease words (R367-R372): each by the first status that applies; `lmap` waits for the answer to its GRANT, `lack`
frees a revoked lease once no access uses it. The model's readings (log entry 27): a GRANT is sent also where its RATE is
too much, and `lack` stalls while a lease is being returned. -/
def Obligations.LeaseWords : Prop :=
  ∀ (f : FS) s g,
    let a := (g.reg f.sa.toNat).toNat
    let w := g.agent s.sched.cur 0 g.nextId g.pc g.hdr
    (Issues s g (.lexport f) [f.sa, f.sd] 1 .supervisor → Drained g →
      (a % 64 ≠ 0 → Answers (.lexport f) s g f.sd s 3)
      ∧ ∀ s1 ds, a % 64 = 0 → g.quiet 4 = true → readDwords s w (g.reg f.sa.toNat) 8 = .ok s1 ds →
        let s2 := s1.forget w
        let e := leaseOfDwords ds false
        let clash : Prop := s2.leases.any (fun o => !o.borrower && o.overlaps e) = true
        (leaseOk s2.fabric.device ds e = false → Answers (.lexport f) s g f.sd s2 3)
        ∧ (leaseOk s2.fabric.device ds e = true →
          (s2.leaseInUse e.number = true → Answers (.lexport f) s g f.sd s2 1)
          ∧ (s2.leaseInUse e.number = false → s2.leasesFull = true → Answers (.lexport f) s g f.sd s2 2)
          ∧ (s2.leaseInUse e.number = false → s2.leasesFull = false → clash → Answers (.lexport f) s g f.sd s2 4)
          ∧ (s2.leaseInUse e.number = false → s2.leasesFull = false → ¬clash →
            Answers (.lexport f) s g f.sd { s2 with leases := s2.leases ++ [e] } 0)))
    ∧ (Issues s g (.lmap f) [f.sa, f.sd] 1 .supervisor → Drained g →
      (∀ s1 ds, s.lmaps.find? (fun p => p.gtag = s.sched.cur) = none → a % 64 = 0 → g.quiet 4 = true →
        readDwords s w (g.reg f.sa.toNat) 8 = .ok s1 ds →
        let s2 := s1.forget w
        let e := leaseOfDwords ds true
        leaseOk s2.fabric.device ds e = true → s2.leaseInUse e.number = false → s2.leasesFull = false →
        let p : PendingLmap :=
          { gtag := s.sched.cur, entry := e, started := s2.cycle, overRate := decide (1050000 < s2.rateSum + e.rate) }
        exec (.lmap f) s = .next (({ s2 with lmaps := s2.lmaps ++ [p] } : State).sendLease 0x20 e))
      ∧ ∀ p, s.lmaps.find? (fun p => p.gtag = s.sched.cur) = some p →
        let done (k : Nat) : Prop :=
          Answers (.lmap f) s g f.sd { s with lmaps := s.lmaps.filter (fun q => q.gtag ≠ s.sched.cur) } k
        (p.answer = some true → done (if p.overRate then 5 else 0)) ∧ (p.answer = some false → done 4)
        ∧ (p.answer = none → p.expired = true → done (if p.overRate then 5 else 6))
        ∧ (p.answer = none → p.expired = false → exec (.lmap f) s = .next s))
    ∧ (Issues s g (.lreclaim f) [f.sa, f.sd] 1 .supervisor → Drained g →
      (2 ^ 16 ≤ a → Answers (.lreclaim f) s g f.sd s 3)
      ∧ (a < 2 ^ 16 → s.lent a = none → Answers (.lreclaim f) s g f.sd s 1)
      ∧ ∀ e, a < 2 ^ 16 → s.lent a = some e →
        (e.state = .exported → Answers (.lreclaim f) s g f.sd (s.setLease a false none) 0)
        ∧ (e.state = .lent →
          Answers (.lreclaim f) s g f.sd ((s.setLease a false (some (e.reclaim s.cycle))).sendLease 0x23 e) 0)
        ∧ (e.state = .reclaiming → Answers (.lreclaim f) s g f.sd s 2))
    ∧ (Issues s g (.lack f) [f.sa, f.sd] 1 .supervisor → Drained g →
      (2 ^ 16 ≤ a → Answers (.lack f) s g f.sd s 3)
      ∧ (a < 2 ^ 16 → s.borrowed a = none → Answers (.lack f) s g f.sd s 1)
      ∧ ∀ e, a < 2 ^ 16 → s.borrowed a = some e →
        (e.state = .demoting → Answers (.lack f) s g f.sd s 2)
        ∧ (e.state = .revoked → s.leaseHeld e = false → Answers (.lack f) s g f.sd (s.setLease a true none) 0)
        ∧ (e.state = .revoked → s.leaseHeld e = true → exec (.lack f) s = .next s)
        ∧ (e.state = .returning → exec (.lack f) s = .next s)
        ∧ (e.state = .active → Answers (.lack f) s g f.sd (beginReturn (s.sendLease 0x24 e) e) 0))

/-- The messages and deadlines of a lease (R369, R371, R372): the state that the entry of this device goes to. At its
deadline a demotion unlocks the unit that it has locked, so that accesses captured before are performed, and the entry is
revoked once none is left. The model's reading (log entry 27): a GRANTED whose RATE is too much leaves the leases as they
are and is answered with REFUSED. -/
def Obligations.LeaseEvents : Prop :=
  ∀ (s : State) (m : LeaseMsg),
    (∀ e, s.lent m.lease = some e →
      let moves (i : Instr) (new : Option LeaseEntry) : Prop := ∃ t, exec i s = .next t ∧ t.lent m.lease = new ∧ t.groups = s.groups
      (s.root.failedStage = 0 → e.state = .exported → e.peer = m.src → e.backed = m.backed → e.gran = m.gran → e.notice = m.notice →
        moves (.grant m) (some { e with state := .lent }))
      ∧ (e.state = .lent → e.peer = m.src → s.pendingLmap m = none →
        moves (.refused m) (some { e with state := .exported }))
      ∧ (e.state = .lent → e.peer = m.src →
        moves (.leaseReturn m) (some { e with state := .reclaiming, deadline := some (s.cycle + cyclesOf e.notice + 180000) }))
      ∧ (e.state = .reclaiming → e.peer = m.src → moves (.leaseDone m) none)
      ∧ (∀ d, e.state = .reclaiming → e.deadline = some d → d ≤ s.cycle → moves (.lenderDeadline m.lease) none))
    ∧ (s.root.failedStage = 0 → s.lent m.lease = none → exec (.grant m) s = .next (s.refuse m))
    ∧ (s.pendingLmap m = none →
      ((∀ e, s.borrowed m.lease = some e → e.peer ≠ m.src) → exec (.granted m) s = .next (s.refuse m))
      ∧ ∀ e, s.borrowed m.lease = some e → e.peer = m.src → exec (.granted m) s = .next s)
    ∧ (∀ p, s.pendingLmap m = some p →
      (∃ t, exec (.granted m) s = .next t ∧ t.leases = (if p.overRate then s.leases else s.leases ++ [p.entry])
        ∧ t.groups = s.groups ∧ ∀ q ∈ t.lmaps, q.gtag = p.gtag → q.answer = some true)
      ∧ ∃ t, exec (.refused m) s = .next t ∧ t.leases = s.leases ∧ ∀ q ∈ t.lmaps, q.gtag = p.gtag → q.answer = some false)
    ∧ (∀ n p, s.lmaps.find? (fun p => p.entry.number = n && p.open_) = some p →
      p.started + 360000 ≤ s.cycle →
      ∃ t, exec (.lmapTimeout n) s = .next t ∧ t.leases = s.leases ∧ ∀ q ∈ t.lmaps, q.gtag = p.gtag → q.expired = true)
    ∧ ∀ e, s.borrowed m.lease = some e →
      (e.state = .active → e.peer = m.src → exec (.notice m) s = .next (beginReturn s e))
      ∧ (e.state ≠ .active ∨ e.peer ≠ m.src → exec (.notice m) s = .next s)
      ∧ (e.state = .active ∨ e.state = .demoting → e.peer = m.src →
        ∃ t, exec (.revoke m) s = .next t ∧ t.borrowed m.lease = some { e with state := .revoked, deadline := none })
      ∧ ∀ d, e.state = .demoting → e.deadline = some d → d ≤ s.cycle →
        (s.leaseHeld e = true → ∀ n, s.migrations.find? (fun n => decide (n.lease = some m.lease) && n.locked) = some n →
          exec (.borrowerDeadline m.lease) s = .next (s.setMigration { n with locked := false }))
        ∧ (s.leaseHeld e = false → ∃ t, exec (.borrowerDeadline m.lease) s = .next t
          ∧ t.borrowed m.lease = some { e with state := .revoked, deadline := none })

/-- Checkpoints (R375, R376, R423): a descriptor that passes is taken; data is written where a window takes it; the end
raises the counter, ERR where a target refused, and posts CKPT (`EventRecords` says what a post writes). -/
def Obligations.Checkpoints : Prop :=
  (∀ (f : FC) s g, Issues s g (.ckpt f) [f.sa, f.sb, f.sd] 1 .supervisor → Drained g →
    let a := g.reg f.sa.toNat
    let w := g.agent s.sched.cur 0 g.nextId g.pc g.hdr
    (s.ckpt ≠ none → Answers (.ckpt f) s g f.sd s 1)
    ∧ ∀ s1 ds, s.ckpt = none → a.toNat % 64 = 0 → g.quiet 4 = true → readDwords s w a 18 = .ok s1 ds →
      let s2 := s1.forget w
      (ckptTargets s2.imageBytes ds = none → Answers (.ckpt f) s g f.sd s2 2)
      ∧ ∀ ts, ckptTargets s2.imageBytes ds = some ts →
        ∃ c, c.targets = ts ∧ c.counter = g.reg f.sb.toNat ∧ c.part = g.part ∧ c.next = 0
          ∧ Answers (.ckpt f) s g f.sd { s2 with ckpt := some c } 0)
  ∧ (∀ s (d : CkptData),
    let inside (a : Nat) : Prop := d.addr ≤ a ∧ a < d.addr + d.len ∧ ckptAccepts s d.src a = true ∧ namesMemory s.dieMask a = true
    ∃ t, exec (.checkpointData d) s = .next t ∧ { t with mem := s.mem } = s
      ∧ (∀ a, ¬inside a → Memory.read t.mem a = Memory.read s.mem a)
      ∧ (∀ a, inside a → (∀ b ∈ d.bytes, d.addr + b.1 ≠ a) → Memory.read t.mem a = 0)
      ∧ ∀ b, inside (d.addr + b.1) → d.bytes.filter (fun c => c.1 = b.1) = [b] → Memory.read t.mem (d.addr + b.1) = b.2)
  ∧ ∀ s c, s.ckpt = some c → s.imageBytes ≤ 256 * c.next → s.draining = false → c.failed ≠ none ∨ (∀ t ∈ c.targets, t.1 = s.fabric.device) →
    let event : Report :=
      { cause := 0x1D, detail := c.failed.getD 0xFFFF, part := 255, pc := c.pc, hdr := c.hdr, a0 := c.counter.toNat }
    (c.counter = 0 → exec .ckptComplete s = .next (postEvent { s with ckpt := none } event))
    ∧ ∀ l pa s1, c.counter ≠ 0 → translate s c.part c.counter .atomic = (.ok l (.phys pa), s1) →
      let old := Memory.readNat s1.mem pa 8
      ∃ (u : State), exec .ckptComplete s = .next (postEvent { u with ckpt := none } event)
        ∧ Memory.readNat u.mem pa 8 = (old + 1) % 2 ^ 63 + (if c.failed ≠ none ∨ old / 2 ^ 63 = 1 then 2 ^ 63 else 0)
        ∧ ∀ x, x < pa ∨ pa + 8 ≤ x → Memory.read u.mem x = Memory.read s1.mem x

/-! The front end, the fabric, the root. -/

/-- Clause fetch (R46, R61, R132, R137): of the eligible groups the starving ones go first, the oldest of them; else the
lowest priority number, then the oldest. A clause that breaks none of the seven cases of R46 is entered at its first word;
one that does traps at its header once every older instruction has committed, with the lowest case that it breaks: which
of several is the model's reading (log entry 31). -/
def Obligations.ClauseFetch : Prop :=
  ∀ s core,
    let able (g : Grp) : Prop := g ∈ s.groupsOf core ∧ g.eligible s = true ∧ fetchMoves s g = true
    (∀ g, chooseForFetch s core = some g → able g
      ∧ ((∃ h, able h ∧ h.starving s = true) → g.starving s = true ∧ ∀ h, able h → h.starving s = true → h.older g = false)
      ∧ ((∀ h, able h → h.starving s = false) → ∀ h, able h → h.before g = false))
    ∧ ((∃ h, able h ∧ h.starving s = true) →
      exec (.fetchStarvation core) s = exec (.clauseFetch core) s ∧ chooseForFetch s core ≠ none)
    ∧ ∀ g s1 ds, chooseForFetch s core = some g →
      let h := { g with waitingSince := none }
      fetchRest (notePassedOver s core g.tag) h g.hdr g.partly 16 = .whole s1 ds →
      let x (lo n : Nat) : Nat := (ds.headD 0).toNat / 2 ^ lo % 2 ^ n
      let breaks (n : Nat) : Prop :=
        (n = 1 ∧ x 60 4 = 0) ∨ (n = 2 ∧ x 0 38 ≠ 0)
          ∨ (n = 3 ∧ ((x 43 1 = 1 ∧ 11 < x 44 4) ∨ (x 38 1 = 1 ∧ 11 < x 39 4)))
          ∨ (n = 4 ∧ ((x 43 1 = 0 ∧ x 44 4 ≠ 0) ∨ (x 38 1 = 0 ∧ x 39 4 ≠ 0)))
          ∨ (n = 5 ∧ x 43 1 = 1 ∧ x 38 1 = 1 ∧ x 44 4 = x 39 4)
          ∨ (n = 6 ∧ ∃ w ∈ ds.tail, (w.getLsbD 0 = true ∧ x 43 1 = 0) ∨ (w.getLsbD 1 = true ∧ x 38 1 = 0))
          ∨ (n = 7 ∧ ∃ w ∈ ds.tail.dropLast, fnOf w = 0 ∧ opOf w ∈ [0x18, 0x19, 0x1A, 0x1D, 0x70, 0x71])
      (∀ n, breaks n → (∀ k, k < n → ¬breaks k) → g.vq = [] →
        exec (.clauseFetch core) s = .next (takeTrap s1 g.tag { cause := 0x02, detail := n } g.hdr g.hdr))
      ∧ ((∀ n, ¬breaks n) → g.midClause = false →
        ∃ g', exec (.clauseFetch core) s = .next (s1.setGrp g.tag g') ∧ g'.clause = ds ∧ g'.pc = g.hdr + 8
          ∧ { g' with clause := g.clause, pc := g.pc, partly := g.partly, waitingSince := g.waitingSince } = g)

/-- Requests and their answers (R357, R359, R362-R366): a packet's header is one flit, its fields where R357 puts them,
and its data follows in whole flits; a request of which an earlier one is still to be performed waits for it; a request
that has not been seen waits to be performed, one that has is not performed again; an answer counts once; a request
without one is sent again seven times and then given up. -/
def Obligations.RemoteRequests : Prop :=
  (∀ p : Packet, let byte (k : Nat) : Nat := ((packetBytes p).getD k 0).toNat
    (packetHeader p).length = 64
    ∧ (p.esize ∈ [8, 16, 32, 64] → (packetBytes p).length = 64 * packetFlits p)
    ∧ byte 0 = p.kind % 256 ∧ byte 4 + 256 * byte 5 = p.src % 65536 ∧ byte 6 + 256 * byte 7 = p.dst % 65536
    ∧ byte 8 + 256 * byte 9 = p.ftag % 65536 ∧ byte 10 + 256 * byte 11 = p.gtag % 65536
    ∧ ofBytes (((packetBytes p).drop 12).take 4) = p.seq % 2 ^ 32
    ∧ ofBytes (((packetBytes p).drop 16).take 8) = p.addr.toNat ∧ ofBytes (((packetBytes p).drop 24).take 8) = p.stride.toNat)
  ∧ (∀ s v w, w.todo ≠ [] → w ≠ v → s.fabric.serving = [w, v] → serveNext s v none = none)
  ∧ (∀ s (p : Packet), s.root.failedStage = 0 → p.dst = s.fabric.device → p.reserved = false → packetOp p ≠ none → p.esize ∈ [8, 16, 32, 64] →
    ((s.window p.src).look p.seq = .fresh →
      ∃ t v, exec (.remoteRequest p) s = .next t ∧ t.fabric.serving = s.fabric.serving ++ [v] ∧ v.what = .packet p
        ∧ v.todo = p.mask ∧ v.src = p.src ∧ v.seq = p.seq ∧ (t.window p.src).look p.seq = .again none ∧ t.mem = s.mem)
    ∧ (∀ q, (s.window p.src).look p.seq = .again (some q) → exec (.remoteRequest p) s = .next (s.transmit (.packet q)))
    ∧ ((s.window p.src).look p.seq = .again none ∨ (s.window p.src).look p.seq = .below →
      exec (.remoteRequest p) s = .next s))
  ∧ (∀ s (p : Packet), p.dst = s.fabric.device → p.reserved = false → p.kind = 0x10 ∨ p.kind = 0x11 →
    (s.fabric.requests.find? (fun r => r.dst = p.src && r.seq = p.seq && r.sent) = none →
      exec (.remoteResponse p) s = .next s)
    ∧ ∀ r, s.fabric.requests.find? (fun r => r.dst = p.src && r.seq = p.seq && r.sent) = some r →
      exec (.remoteResponse p) s = .next ((answerRequest (s.settle r) r p.mask p.data p.reason).release.sampleTrip r)
        ∧ ∀ q ∈ (s.settle r).fabric.requests, ¬(q.dst = r.dst ∧ q.seq = r.seq))
  ∧ ∀ s dst seq r, s.fabric.requests.find? (fun r => r.dst = dst && r.seq = seq && r.sent) = some r →
    r.at_ + 57600 ≤ s.cycle →
    (r.resends < 7 →
      ∃ t, exec (.requestTimeout dst seq) s = .next t ∧ t.mem = s.mem
        ∧ ∀ q ∈ t.fabric.requests, q.dst = dst → q.seq = seq → q.resends = r.resends + 1 ∧ q.at_ = s.cycle)
    ∧ (7 ≤ r.resends → exec (.requestTimeout dst seq) s = .next (giveUp s r))

/-- Ports, links and bandwidth (R25, R27, R321-R323, R361, R364): a slot goes to VC2 where its reserve holds a token for
it, else to a tier whose starvation counter stands at 255, VC1 first, else to the lowest tier that waits; the counters
count what higher tiers win; every 256 slots the reserve gains 75 tokens; every 1,024 cycles a die's grants go to the
buckets of the ports where requests wait; a link's replay changes nothing, its retraining the live rate. -/
def Obligations.PortsAndLinks : Prop :=
  (∀ s k w rest, let p := FMap.get {} s.fabric.ports k
    k < 16 → p.slots < 256 → p.starve1 ≠ 255 → p.starve2 ≠ 255 → p.bucket = 0 → p.vc0 = w :: rest →
    ∃ t, exec (.flitSlotGrant k) s = .next t ∧ t.mem = s.mem ∧ t.groups = s.groups
      ∧ (let q := FMap.get {} t.fabric.ports k
        q.vc0 = (if w.left ≤ 1 then rest else { w with left := w.left - 1 } :: rest) ∧ q.vc1 = p.vc1 ∧ q.vc2 = p.vc2
        ∧ q.slots = p.slots + 1 ∧ q.bucket = 0
        ∧ q.starve1 = (if p.vc1 = [] then 0 else min 255 (p.starve1 + 1))
        ∧ q.starve2 = (if p.vc2 = [] then 0 else min 255 (p.starve2 + 1)))
      ∧ t.fabric.links = (if w.left ≤ 1 then s.fabric.links ++ [⟨w.spine, w.what⟩] else s.fabric.links))
  ∧ (∀ s k w rest, let p := FMap.get {} s.fabric.ports k
    let left := if w.left ≤ 1 then rest else { w with left := w.left - 1 } :: rest
    let wins (ok : Port → Prop) : Prop := ∃ t, exec (.flitSlotGrant k) s = .next t ∧ t.mem = s.mem ∧ t.groups = s.groups
      ∧ ok (FMap.get {} t.fabric.ports k) ∧ (FMap.get {} t.fabric.ports k).slots = p.slots + 1
      ∧ t.fabric.links = (if w.left ≤ 1 then s.fabric.links ++ [⟨w.spine, w.what⟩] else s.fabric.links)
    k < 16 → p.slots < 256 →
    (p.vc2 = w :: rest → w.reserve = true → 0 < p.bucket →
      wins (fun q => q.vc0 = p.vc0 ∧ q.vc1 = p.vc1 ∧ q.vc2 = left ∧ q.bucket = p.bucket - 1 ∧ q.starve2 = 0
        ∧ q.starve1 = (if p.vc1 = [] then 0 else p.starve1)))
    ∧ (p.bucket = 0 ∨ (∀ v ∈ p.vc2.head?, v.reserve = false) →
      (p.vc1 = w :: rest → p.starve1 = 255 ∨ (p.starve2 ≠ 255 ∧ p.vc0 = []) →
        wins (fun q => q.vc0 = p.vc0 ∧ q.vc1 = left ∧ q.vc2 = p.vc2 ∧ q.bucket = p.bucket ∧ q.starve1 = 0
          ∧ q.starve2 = (if p.vc2 = [] then 0 else min 255 (p.starve2 + 1))))
      ∧ (p.vc2 = w :: rest → p.starve1 ≠ 255 → p.starve2 = 255 ∨ (p.vc0 = [] ∧ p.vc1 = []) →
        wins (fun q => q.vc0 = p.vc0 ∧ q.vc1 = p.vc1 ∧ q.vc2 = left ∧ q.bucket = p.bucket ∧ q.starve2 = 0
          ∧ q.starve1 = (if p.vc1 = [] then 0 else p.starve1)))))
  ∧ (∀ s k, let p := FMap.get {} s.fabric.ports k
    k < 16 → 256 ≤ p.slots →
    ∃ t, exec (.reserveTokenRefill k) s = .next t
      ∧ FMap.get {} t.fabric.ports k = { p with slots := p.slots - 256, bucket := min 255 (p.bucket + 75) } ∧ t.mem = s.mem)
  ∧ (∀ s k, exec (.linkReplay k) s = .next s)
  ∧ (∀ s k rate, k < 16 → rate ≤ 2 →
    ∃ t, exec (.linkRetrain k rate) s = .next t ∧ (FMap.get {} t.fabric.ports k).rate = rate ∧ t.groups = s.groups)
  ∧ ∀ s die, die < 8 → (s.dieAt die).refilled + 1024 ≤ s.cycle →
    let s0 := s.setDie die { s.dieAt die with refilled := s.cycle }
    (activeParts s die = [] → exec (.bucketRefill die) s = .next s0)
    ∧ ∀ part c, activeParts s die = [part] → waitingPorts s die part = [c] → (s.partAt part).share ≠ 0 →
      let u := s.coreAt c
      let budget := s.bandwidth.toNat % 2 ^ 17
      exec (.bucketRefill die) s = .next (s0.setCore c
        { u with bucket := min (min (u.bucket + budget) (2 * budget)) (2 ^ 17 - 1), asking := false })

/-- The root (R451-R455): an append puts 64 bytes at AUDARG and into the log, AUDSEQ and the chain head with it; an export
lays down its fields and the 132 bytes of their signature; a boot stage is measured into BOOTM, or halts the device, and
waits for an export that runs. The model's own: the engine sets SEQ and CYCLE of an entry (log entry 21), how many stages
there are and what a failing one leaves (log entry 26), the signature as an opaque function and the layout of the SPDM
answers, which go to the mailbox (log entry 14). -/
def Obligations.Root : Prop :=
  (∀ s kind body, let r := s.root
    r.busy = true → r.doing = 1 →
    let entry := auditEntry r.audseq s.cycleReg kind body
    entry.length = 64
    ∧ ∃ t, exec (.auditAppend kind body) s = .next t ∧ { t with root := s.root } = s ∧ t.root.audseq = r.audseq + 1
      ∧ t.root.head = digestOf (sha512 (digestBytes r.head ++ entry)) ∧ t.root.busy = false
      ∧ t.root.log.getLast? = some entry ∧ t.root.log.length ≤ max r.log.length 16384
      ∧ ∀ k, k < 64 → Memory.read t.root.sram (r.arg.toNat + k) = entry.getD k 0)
  ∧ (∀ s, let r := s.root
    r.busy = true → r.doing = 2 →
    let fields := toBytes 8 r.audseq ++ toBytes 8 r.oldest ++ digestBytes r.head ++ toBytes 8 r.nonce.toNat
    ∃ t, exec .auditExport s = .next t ∧ { t with root := s.root } = s
      ∧ { t.root with sram := r.sram, busy := true } = r ∧ t.root.busy = false
      ∧ (∀ k, k < 88 → Memory.read t.root.sram (r.arg.toNat + k) = fields.getD k 0)
      ∧ (∀ k, k < 132 → Memory.read t.root.sram (r.arg.toNat + 88 + k) = (takeBytes 132 (Config.signature 0 fields)).getD k 0)
      ∧ ∀ a, a < r.arg.toNat ∨ r.arg.toNat + 220 ≤ a → Memory.read t.root.sram a = Memory.read r.sram a)
  ∧ (∀ s image, let r := s.root
    (r.busy = true → r.doing = 2 → exec (.measuredBoot image) s = .next s)
    ∧ (r.failedStage = 0 → r.stages < s.bootStages → ¬(r.busy = true ∧ r.doing = 2) → ∃ t, exec (.measuredBoot image) s = .next t ∧ { t with root := s.root } = s
      ∧ (Config.imageValid r.stages image = true →
        t.root.stages = r.stages + 1 ∧ t.root.bootm = digestOf (sha512 (digestBytes r.bootm ++ sha512 image))
          ∧ t.root.digests = r.digests ++ [digestOf (sha512 image)] ∧ t.root.audseq = r.audseq + 1 ∧ t.root.failedStage = 0)
      ∧ (Config.imageValid r.stages image = false → t.root = { r with failedStage := r.stages + 1 })))
  ∧ ∀ s (request : List (BitVec 8)),
    ∀ p ∈ [(Instr.getVersion request, 0x84), (.getCapabilities request, 0xE1), (.negotiateAlgorithms request, 0xE3),
      (.getDigests request, 0x81), (.getCertificate request, 0x82), (.challenge request, 0x83), (.getMeasurements request, 0xE0)],
      let code := (request.getD 1 0).toNat
      (code ≠ p.2 → exec p.1 s = .next (s.reply [0x13, 0x7F, 1, 0]))
      ∧ (code = p.2 →
        ∃ t a, exec p.1 s = .next t ∧ t.root.answers = s.root.answers ++ [a] ∧ a.length ≥ 4
          ∧ { t with root := { t.root with answers := s.root.answers }, draws := s.draws } = s)

/-! Vector instructions. -/

/-- Element-wise arithmetic (R200, R201, R206-R209): every active element gets the result of its operation, from the
registers as they were at vector issue. Nothing else changes but the flags, and the exception mask under XM. -/
def Obligations.VectorArithmetic : Prop :=
  (∀ f : FV, ∀ p ∈ [(Instr.vadd f, opAdd), (.vsub f, opSub), (.vmul f, opMul), (.vmin f, opMin), (.vmax f, opMax),
      (.vand f, opAnd), (.vor f, opOr), (.vxor f, opXor), (.vnot f, opNot), (.vsll f, opSll), (.vsrl f, opSrl),
      (.vsra f, opSra), (.vdiv f, opDiv), (.vsqrt f, opSqrt), (.vabs f, opAbs), (.vneg f, opNeg), (.vmulh f, opMulh),
      (.vabd f, opAbd), (.vclz f, opClz), (.vctz f, opCtz), (.vpopc f, opPopc), (.vfsgnj f, opSgnj), (.vfround f, opRound)],
    VectorRun p.1 (fun g =>
      let t := g.typeOf f.view
      let w := typeWidth t
      g.loop f.view w (fun e => p.2 t (g.rmOf f.view) (f.view.sat = 1) (g.elem f.view.va w e) (g.elem f.view.vb w e))))
  ∧ (∀ f : FVS, ∀ p ∈ [(Instr.vaddVs f, opAdd), (.vsubVs f, opSub), (.vmulVs f, opMul), (.vminVs f, opMin), (.vmaxVs f, opMax),
      (.vandVs f, opAnd), (.vorVs f, opOr), (.vxorVs f, opXor), (.vsllVs f, opSll), (.vsrlVs f, opSrl), (.vsraVs f, opSra)],
    VectorRun p.1 (fun g =>
      let t := g.typeOf f.view
      let w := typeWidth t
      g.loop f.view w (fun e =>
        p.2 t (g.rmOf f.view) (f.view.sat = 1) (g.elem f.view.va w e) ((g.reg f.sb.toNat).toNat % 2 ^ w))))
  ∧ (∀ f : FV, ∀ p ∈ [(Instr.vaddImm f, opAdd), (.vandImm f, opAnd), (.vsllImm f, opSll), (.vsrlImm f, opSrl), (.vsraImm f, opSra)],
    VectorRun p.1 (fun g =>
      let t := g.typeOf f.view
      let w := typeWidth t
      g.loop f.view w (fun e => p.2 t (g.rmOf f.view) (f.view.sat = 1) (g.elem f.view.va w e)
        (ofInt w (toSigned 12 (f.view.imm / 16))))))
  ∧ (∀ f : FV, ∀ p ∈ [(Instr.vwadd f, opWadd), (.vwmul f, opWmul)],
    VectorRun p.1 (fun g =>
      let t := g.typeOf f.view
      let w := typeWidth t
      g.loop f.view (2 * w) (fun e => p.2 t (g.rmOf f.view) false (g.elem f.view.va w e) (g.elem f.view.vb w e))))
  ∧ (∀ f : FV, ∀ p ∈ [(Instr.vffma f, false, false), (.vffms f, false, true), (.vffnma f, true, true), (.vffnms f, true, false)],
    VectorRun p.1 (fun g =>
      let t := g.typeOf f.view
      let w := typeWidth t
      let x (r e : Nat) : FVal := readFloat t (g.elem r w e)
      let signed (n : Bool) (y : FVal) : FVal := if n then y.negate else y
      g.loop f.view w (fun e => floatFma t (g.rmOf f.view) (signed p.2.1 (x f.view.va e)) (x f.view.vb e)
        (signed p.2.2 (x f.view.vc e)))))
  ∧ (∀ f : FV, ∀ p ∈ [(Instr.vfexp2 f, approxExp2), (.vflog2 f, approxLog2), (.vfrcp f, approxRcp), (.vfrsq f, approxRsq),
      (.vftanh f, approxTanh)],
    VectorRun p.1 (fun g => g.loop f.view 32 (fun e => p.2 (g.elem f.view.va 32 e))))
  ∧ ∀ f : FV, VectorRun (.vdot4 f) (fun g => g.dot f 4 (intDot (f.view.sat = 1)))
    ∧ VectorRun (.vfdot2 f) (fun g => g.dot f 2 floatDot) ∧ VectorRun (.vfdot4 f) (fun g => g.dot f 4 floatDot)

/-- THE ELEMENT LOOP of R200 and the mask writes of R212: every active element holds its result, every other element its
old value; flags of the elements below VTAIL join XFLAGS (R194); mask bits of the elements listed are written, the others
kept. -/
def Obligations.ElementLoop : Prop :=
  (∀ (g : Grp) (v : VView) (w : Nat) (op : Nat → Nat × Nat), w ∈ [4, 8, 16, 32, 64] →
    let h := g.loop v w op
    (∀ e, g.active v.mreg e = true → h.elem v.vd w e = (op e).1 % 2 ^ w)
    ∧ (∀ e, g.active v.mreg e = false → h.elem v.vd w e = g.elem v.vd w e)
    ∧ (∀ b, h.xflags.testBit b = true ↔
      g.xflags.testBit b = true ∨ ∃ e, g.active v.mreg e = true ∧ e < g.vtail ∧ (op e).2.testBit b = true)
    ∧ (∀ r, h.reg r = g.reg r) ∧ (∀ k, v.xm ≠ 1 ∨ k ≠ v.xmd → h.mask k = g.mask k)
    ∧ (v.xm = 1 → ∀ e, e < 2048 → ((h.mask v.xmd).getLsbD e = true ↔
      g.active v.mreg e = true ∧ e < g.vtail ∧ Nat.land (op e).2 47 ≠ 0)))
  ∧ ∀ (g : Grp) (md : Nat) (es : List Nat) (p : Nat → Bool),
    let h := g.putBits md (es.map (fun e => (e, p e)))
    (∀ e, e < 2048 → (h.mask md).getLsbD e = if e ∈ es then p e else (g.mask md).getLsbD e)
    ∧ ∀ k, k ≠ md → h.mask k = g.mask k

/-- The integer operations of R206 and R212 on elements of width w: sums, differences and products modulo 2^w, or the
nearest value of the type under SAT, with SI where that differs; minimum, maximum and comparisons by value; shifts by the
low bits of the second operand, `vsra` with sign fill; division toward zero, all ones by zero, the least signed value by
−1 itself; high products and doubled widths exact; absolute values, negation and absolute differences; counts of bits. -/
def Obligations.IntegerElements : Prop :=
  ∀ (t rm a b : Nat), t < 8 →
    let w := typeWidth t
    a < 2 ^ w → b < 2 ^ w →
    let clamp (x : Int) : Int := max (intRange t).1 (min (intRange t).2 x)
    opAdd t rm false a b = ((a + b) % 2 ^ w, 0) ∧ opSub t rm false a b = ((a + 2 ^ w - b) % 2 ^ w, 0)
    ∧ opMul t rm false a b = (a * b % 2 ^ w, 0)
    ∧ intValue t (opAdd t rm true a b).1 = clamp (intValue t a + intValue t b)
    ∧ intValue t (opSub t rm true a b).1 = clamp (intValue t a - intValue t b)
    ∧ intValue t (opMul t rm true a b).1 = clamp (intValue t a * intValue t b)
    ∧ intValue t (opMin t rm false a b).1 = min (intValue t a) (intValue t b)
    ∧ intValue t (opMax t rm false a b).1 = max (intValue t a) (intValue t b)
    ∧ (opNot t rm false a b).1 = 2 ^ w - 1 - a
    ∧ (opSll t rm false a b).1 = a * 2 ^ (b % w) % 2 ^ w ∧ (opSrl t rm false a b).1 = a / 2 ^ (b % w)
    ∧ (b = 0 → (opDiv t rm false a b).1 = 2 ^ w - 1)
    ∧ (4 ≤ t → b ≠ 0 → (opDiv t rm false a b).1 = a / b)
    ∧ (t < 4 → b ≠ 0 → ¬(a = 2 ^ (w - 1) ∧ b = 2 ^ w - 1) →
      toSigned w (opDiv t rm false a b).1 = (toSigned w a).tdiv (toSigned w b))
    ∧ (t < 4 → a = 2 ^ (w - 1) → b = 2 ^ w - 1 → (opDiv t rm false a b).1 = a)
    ∧ toSigned w (opSra t rm false a b).1 = toSigned w a / 2 ^ (b % w)
    ∧ cmpEq t a b = (decide (a = b), 0) ∧ cmpNe t a b = (decide (a ≠ b), 0)
    ∧ cmpLt t a b = (decide (intValue t a < intValue t b), 0) ∧ cmpLe t a b = (decide (intValue t a ≤ intValue t b), 0)
    ∧ cmpUn t a b = (false, 0)
    ∧ intValue t (opMulh t rm false a b).1 = intValue t a * intValue t b / 2 ^ w
    ∧ (opAbd t rm false a b).1 = (intValue t a - intValue t b).natAbs
    ∧ ((opWadd t rm false a b).1 : Int) = (intValue t a + intValue t b) % 2 ^ (2 * w)
    ∧ ((opWmul t rm false a b).1 : Int) = (intValue t a * intValue t b) % 2 ^ (2 * w)
    ∧ ((opAbs t rm false a b).1 : Int) = (intValue t a).natAbs ∧ ((opNeg t rm false a b).1 : Int) = -intValue t a % 2 ^ w
    ∧ intValue t (opAbs t rm true a b).1 = clamp (intValue t a).natAbs
    ∧ intValue t (opNeg t rm true a b).1 = clamp (-intValue t a)
    ∧ (∀ k, k < w → (opAnd t rm false a b).1.testBit k = (a.testBit k && b.testBit k)
      ∧ (opOr t rm false a b).1.testBit k = (a.testBit k || b.testBit k)
      ∧ (opXor t rm false a b).1.testBit k = (a.testBit k != b.testBit k))
    ∧ ((opClz t rm false a b).1 ≤ w ∧ a < 2 ^ (w - (opClz t rm false a b).1)
      ∧ (a ≠ 0 → 2 ^ (w - 1 - (opClz t rm false a b).1) ≤ a))
    ∧ ((a = 0 → (opCtz t rm false a b).1 = w)
      ∧ (a ≠ 0 → a % 2 ^ (opCtz t rm false a b).1 = 0 ∧ a.testBit (opCtz t rm false a b).1 = true))
    ∧ (opPopc t rm false a b).1 = ((upTo w).filter (fun k => a.testBit k)).length
    ∧ (∀ p ∈ [(opAdd, intValue t a + intValue t b), (opSub, intValue t a - intValue t b), (opMul, intValue t a * intValue t b)],
      (p.1 t rm true a b).2 = (if clamp p.2 = p.2 then 0 else 32))

/-- Moves between scalars, masks and vectors, compares and mask words (R179-R182, R204, R205, R210-R214): what each leaves
in its destination. That `mget` returns the stored bits of elements beyond the greatest element count is the model's
choice (log entry 35). -/
def Obligations.MovesAndMasks : Prop :=
  (∀ f : FVS,
    let v := f.view
    let low (g : Grp) (w : Nat) : Nat := (g.reg f.sb.toNat).toNat % 2 ^ w
    let width (g : Grp) : Nat := typeWidth (g.typeOf v)
    VectorRun (.vbcast f) (fun g => g.putAll v.vd (width g) ((g.activeList v.mreg).map (fun e => (e, low g (width g)))))
    ∧ VectorRun (.vins f) (fun g =>
      if g.active v.mreg (v.imm / 16) then g.setElem v.vd (width g) (v.imm / 16) (low g (width g)) else g)
    ∧ VectorRun (.mput f) (fun g =>
      let c := v.imm / 16 % 32
      g.putBits v.vd ((upTo 64).map (fun i =>
        (64 * c + i, (g.reg f.sb.toNat).getLsbD i && decide (64 * c + i < 32 * g.regWords / width g)))))
    ∧ VectorRun (.msbf f) (fun g => g.putBits v.vd ((g.activeList v.mreg).map (fun e => (e, decide (e < g.firstSet v)))))
    ∧ VectorRun (.msif f) (fun g => g.putBits v.vd ((g.activeList v.mreg).map (fun e => (e, decide (e ≤ g.firstSet v)))))
    ∧ VectorRun (.msof f) (fun g => g.putBits v.vd ((g.activeList v.mreg).map (fun e => (e, decide (e = g.firstSet v)))))
    ∧ VectorRun (.mfirst f) (fun g =>
      g.setReg f.sb.toNat (if g.firstSet v = g.vl then 0xFFFFFFFFFFFFFFFF else BitVec.ofNat 64 (g.firstSet v)))
    ∧ VectorRun (.mpopc f) (fun g =>
      g.setReg f.sb.toNat (BitVec.ofNat 64 ((g.activeList v.mreg).filter (fun e => (g.mask v.va).getLsbD e)).length)))
  ∧ (∀ f : FI,
    VectorRun (.vget f) (fun g =>
      let t := (typeInForce g.fmt (f.imm.toNat % 16) 0).getD 8
      let e := f.imm.toNat / 16 % 4096
      g.setReg f.sd.toNat (if e < g.vl ∧ (g.mask 0).getLsbD e = true then elemScalar t (g.elem f.sa.toNat (typeWidth t) e) else 0))
    ∧ VectorRun (.mget f) (fun g =>
      g.setReg f.sd.toNat ((g.mask f.sa.toNat).extractLsb' (64 * (f.imm.toNat / 256 % 32)) 64))
    ∧ VectorRun (.vsetvl f) (fun g =>
      let fmt := f.imm.toNat % 16
      let code := f.imm.toNat / 16 % 8
      let avl := (g.reg f.sa.toNat).toNat
      let vl := min (32 * g.regWords / typeWidth fmt) (roundUp avl (16 * 2 ^ code))
      { g with
        vl := vl, vtail := min avl vl
        vconf := BitVec.ofNat 64 (setBitsOf (setBitsOf g.vconf.toNat 2 4 fmt) 10 3 code) }.setReg f.sd.toNat (BitVec.ofNat 64 vl)))
  ∧ ∀ f : FV,
    let v := f.view
    let width (g : Grp) : Nat := typeWidth (g.typeOf v)
    VectorRun (.vid f) (fun g => g.loop v (width g) (fun e => (e % 2 ^ width g, 0)))
    ∧ VectorRun (.viota f) (fun g => g.loop v (width g) (fun e =>
      (((g.selected v.mreg v.va).filter (fun i => i < e)).length % 2 ^ width g, 0)))
    ∧ VectorRun (.vmerge f) (fun g => g.loop v (width g) (fun e =>
      (g.elem (if (g.mask v.vc).getLsbD e then v.vb else v.va) (width g) e, 0)))
    ∧ VectorRun (.vmv f) (fun g => g.loop v (width g) (fun e => (g.elem v.va (width g) e, 0)))
    ∧ VectorRun (.vfclass f) (fun g => g.loop v (width g) (fun e =>
      (2 ^ classBit (g.typeOf v) (g.elem v.va (width g) e), 0)))
    ∧ (∀ p ∈ [(Instr.vcmpeq f, cmpEq), (.vcmpne f, cmpNe), (.vcmplt f, cmpLt), (.vcmple f, cmpLe), (.vcmpun f, cmpUn)],
      VectorRun p.1 (fun g =>
        let op (e : Nat) : Bool × Nat := p.2 (g.typeOf v) (g.elem v.va (width g) e) (g.elem v.vb (width g) e)
        (g.putBits v.vd ((g.activeList v.mreg).map (fun e => (e, (op e).1)))).raiseElements v
          ((g.activeList v.mreg).map (fun e => (e, (op e).2)))))
    ∧ ∀ p ∈ [(Instr.mand f, fun a b => a && b), (.mor f, fun a b => a || b), (.mxor f, fun a b => a != b),
        (.mandn f, fun a b => a && !b), (.mnot f, fun a _ => !a)],
      VectorRun p.1 (fun g =>
        g.putBits v.vd ((g.activeList v.mreg).map (fun e => (e, p.2 ((g.mask v.va).getLsbD e) ((g.mask v.vb).getLsbD e)))))

/-- Cross-element words (R215-R220, R223, R224): the position that each element reads, where the elements of a compress or
an expand go, and the segments of a scan or a reduction: `run e` is the running value after element e, which starts afresh
at each segment; a scan writes it to every contributing element, a reduction the last of a segment to its first element
where that is active. -/
def Obligations.CrossElementWords : Prop :=
  (∀ f : FV,
    let v := f.view
    let width (g : Grp) : Nat := typeWidth (g.typeOf v)
    VectorRun (.vperm f) (fun g => g.slide v (fun e =>
      if g.vl ≤ g.elem v.vb 16 e then .value 0 false else .pos (g.elem v.vb 16 e)))
    ∧ VectorRun (.vrev f) (fun g => g.slide v (fun e => .pos (g.vl - 1 - e)))
    ∧ VectorRun (.vqx f) (fun g => g.quad f (fun j => Nat.xor j 1))
    ∧ VectorRun (.vqy f) (fun g => g.quad f (fun j => Nat.xor j 2))
    ∧ VectorRun (.vqd f) (fun g => g.quad f (fun j => Nat.xor j 3))
    ∧ VectorRun (.vqbc f) (fun g => g.quad f (fun _ => v.imm / 16 % 4))
    ∧ VectorRun (.vcompress f) (fun g =>
      let vals := (g.selected v.mreg v.vb).map (fun e => g.elem v.va (width g) e)
      (g.putAll v.vd (width g) ((upTo vals.length).zip vals)).putValid v (upTo vals.length))
    ∧ VectorRun (.vexpand f) (fun g =>
      let es := g.selected v.mreg v.vb
      (g.putAll v.vd (width g) (es.zip ((upTo es.length).map (fun k => g.elem v.va (width g) k)))).putValid v es)
    ∧ (∀ p ∈ [(Instr.vsegscanAdd f, opAdd), (.vsegscanMin f, opMin), (.vsegscanMax f, opMax)],
      VectorRun p.1 (fun g => g.segScan f p.2))
    ∧ (∀ p ∈ [(Instr.vsegredAdd f, opAdd), (.vsegredMin f, opMin), (.vsegredMax f, opMax)],
      VectorRun p.1 (fun g => g.segReduce f p.2)
    ∧ ∀ (g : Grp) (run : Nat → Option Nat),
      let w := width g
      let contributes (e : Nat) : Bool := g.active v.mreg e && decide (e < g.vtail)
      let starts (e : Nat) : Bool := decide (e = 0) || (g.mask v.vb).getLsbD e
      let before (e : Nat) : Option Nat := if starts e then none else run (e - 1)
      let step (a e : Nat) : Nat × Nat := p.2 (g.typeOf v) (g.rmOf v) (v.sat = 1) a (g.elem v.va w e)
      (∀ e, run e = if contributes e then
          (match before e with | none => some (g.elem v.va w e) | some a => some (step a e).1) else before e) →
      w ∈ [4, 8, 16, 32, 64] →
      (∀ op ∈ [g.segScan f p.2, g.segReduce f p.2],
        (∀ b, op.xflags.testBit b = true ↔ g.xflags.testBit b = true ∨
          ∃ e a, e < g.vl ∧ contributes e = true ∧ before e = some a ∧ (step a e).2.testBit b = true)
        ∧ ∀ r, op.reg r = g.reg r)
      ∧ (∀ e x, e < g.vl → contributes e = true → run e = some x → (g.segScan f p.2).elem v.vd w e = x % 2 ^ w)
      ∧ (∀ e, contributes e = false ∨ g.vl ≤ e → (g.segScan f p.2).elem v.vd w e = g.elem v.vd w e)
      ∧ (∀ e last x, starts e = true → g.active v.mreg e = true → e ≤ last → last < g.vl →
        (∀ k, e < k → k ≤ last → starts k = false) → (last + 1 = g.vl ∨ starts (last + 1) = true) → run last = some x →
        (g.segReduce f p.2).elem v.vd w e = x % 2 ^ w)
      ∧ (∀ e last, e ≤ last → last < g.vl → (∀ k, e < k → k ≤ last → starts k = false) →
        (last + 1 = g.vl ∨ starts (last + 1) = true) → starts e = false ∨ g.active v.mreg e = false ∨ run last = none →
        (g.segReduce f p.2).elem v.vd w e = g.elem v.vd w e)))
  ∧ ∀ f : FVS,
    let v := f.view
    let low (g : Grp) : Nat := (g.reg f.sb.toNat).toNat % 2 ^ typeWidth (g.typeOf v)
    let n (g : Grp) : Nat := (g.reg f.sb.toNat).toNat
    VectorRun (.vslideup f) (fun g => g.slide v (fun e => if e < n g then .keep else .pos (e - n g)))
    ∧ VectorRun (.vslidedn f) (fun g => g.slide v (fun e => if e + n g < g.vl then .pos (e + n g) else .value 0 false))
    ∧ VectorRun (.vslide1up f) (fun g => g.slide v (fun e => if e = 0 then .value (low g) true else .pos (e - 1)))
    ∧ VectorRun (.vslide1dn f) (fun g => g.slide v (fun e => if e + 1 = g.vl then .value (low g) true else .pos (e + 1)))

/-- Conversions, block scales, bit planes, ranks and accumulator moves (R175, R183-R193, R271-R274, R277, R281-R284,
R292): the effect of each at vector issue, with what `vqscale`, `vbpack`, `vrank` and a merge of two entries leave given
by value. Which NaN scale byte 0xFF stands for is the model's choice (log entry 35); which of two duplicates that differ
in the sign of a zero key is kept is free (log entry 16, tag 8). -/
def Obligations.ConversionsAndTiles : Prop :=
  (∀ f : FV,
    let v := f.view
    let quant (g : Grp) : Nat := g.codeOf v.ty
    let wide (g : Grp) : Nat := g.codeOf v.ty2
    let entry (g : Grp) (x r : Nat) : Nat := g.elem x 16 r
    let held (g : Grp) (x r : Nat) : Bool := decide (∀ i, i ≤ r → entry g x i ≠ 0x7FFF)
    let count := v.imm / 16 % 2048 + 1
    let keys (g : Grp) (k : Nat) : Nat := powerAbove (ceilDiv (k * typeWidth (g.typeOf v)) (32 * g.regWords))
    (∀ i ∈ [Instr.vcvt f, .vwcvt f, .vncvt f],
      VectorRun i (fun g =>
        g.loop v (typeWidth (quant g)) (fun e =>
          convertElem (quant g) (wide g) (g.rmOf v) (v.sat = 1) (g.elem v.va (typeWidth (wide g)) e))))
    ∧ VectorRun (.vqscale f) (fun g => effVqscale g f [])
    ∧ VectorRun (.vqapply f) (fun g =>
      let q := quant g
      g.loop v (typeWidth q) (fun e =>
        let x := g.scaleByte v.vb q v.vd e
        let a := (readFloat (wide g) (g.elem v.va (typeWidth (wide g)) e)).scale (127 - (x : Int))
        if g.vtail ≤ e then (0, 0)
        else if x = 255 then (if q = 0 then (0, 1) else narrowFloat q (g.rmOf v) (v.sat = 1) (.nan false))
        else if q = 0 then (ofInt 8 (floatToInt (g.rmOf v) (-128) 127 a).1, (floatToInt (g.rmOf v) (-128) 127 a).2)
        else narrowFloat q (g.rmOf v) (v.sat = 1) a))
    ∧ VectorRun (.vdqapply f) (fun g =>
      let q := quant g
      let t := wide g
      g.loop v (typeWidth t) (fun e =>
        let x := g.scaleByte v.vb q v.va e
        let a := g.elem v.va (typeWidth q) e
        let y : FVal := if q = 0 then .fin (decide (toSigned 8 a < 0)) (toSigned 8 a).natAbs 0 else readFloat q a
        if x = 255 ∨ y.isNan = true then ((floatFmt t).nan, 0)
        else narrowFloat t (g.rmOf v) (v.sat = 1) (y.scale ((x : Int) - 127))))
    ∧ VectorRun (.vbpack f) (fun g => effVbpack g f [])
    ∧ VectorRun (.vbunpack f) (fun g =>
      let k := v.imm / 4096 % 8 + 1
      let at_ (e : Nat) : Nat := 8 * (v.imm / 16 % 256) + e
      let plane (e p : Nat) : Nat := bit ((g.elem v.va 8 (256 * p + at_ e / 8)).testBit (at_ e % 8))
      let q (e : Nat) : Int := toSigned k ((upTo k).map (fun p => plane e p * 2 ^ (k - 1 - p))).sum
      g.putAll v.vd 8 ((g.activeList v.mreg).map (fun e =>
        (e, if e < g.vtail ∧ at_ e < 2048 then ofInt 8 (if k = 8 then q e else q e * 2 ^ (8 - k) + 2 ^ (7 - k)) else 0))))
    ∧ VectorRun (.vrank f) (fun g => g.rank v false) ∧ VectorRun (.vrankMag f) (fun g => g.rank v true)
    ∧ VectorRun (.vrkmerge f) (fun g =>
      let t := g.typeOf v
      let w := typeWidth t
      let k := listCount v
      if g.mask 0 = 0 then g else g.putPair v.vd k w (mergeRanked t k (g.pairList v.va k w) (g.pairList v.vb k w)))
    ∧ VectorRun (.vrkpack f) (fun g =>
      let x := v.va + keys g count
      if g.mask 0 = 0 then g
      else g.putAll v.vd 16 ((upTo count).map (fun j => (j, if held g x j then entry g x j else 0x7FFF))))
    ∧ VectorRun (.unrank f) (fun g =>
      let t := g.typeOf v
      let base := g.rankcfg.toNat / 2 ^ 32 % 2 ^ 15
      let off := g.rankcfg.toNat / 2 ^ 16 % 2 ^ 11
      g.loop v (typeWidth t) (fun e =>
        match (upTo count).find? (fun r => held g v.va r && decide (entry g v.va r % 2 ^ 15 = base + e)) with
        | none => (0, 0)
        | some r =>
          let y := readFloat 9 (FMap.get tableReset g.recon (off + r)).toNat
          if g.vtail ≤ e then (0, 0)
          else narrowFloat t (g.rmOf v) false (if (entry g v.va r).testBit 15 then y.negate else y)))
    -- the block scales of vqscale
    ∧ (∀ g : Grp, quant g ∈ [11, 12, 13, 0] → wide g ∈ [8, 9, 10] →
      let w := typeWidth (quant g)
      let block := 16 * 2 ^ (g.vconf.toNat / 2 ^ 10 % 8)
      let n := 32 * g.regWords / w
      let span := min 32 (block * w / 8)
      let x (e : Nat) : FVal := readFloat (wide g) (g.elem v.va (typeWidth (wide g)) e)
      let place (b : Nat) : Nat :=
        let r := v.imm / 256 % 32 + b * block / n
        (r - span * (r / span)) * (n / block) + b * block % n / block
      let of (b e : Nat) : Prop := b * block ≤ e ∧ e < (b + 1) * block ∧ g.active v.mreg e = true
      let emax : Int := if quant g = 11 then 8 else if quant g = 12 then 15 else if quant g = 13 then 2 else 6
      let h := effVqscale g f []
      (∀ b, (∃ e, of b e) → (∀ c, c ≠ b → (∃ e, of c e) → place c ≠ place b) →
        ((∃ e, of b e ∧ e < g.vtail ∧ (x e).notFinite = true) → h.elem v.vd 8 (place b) = 0xFF)
        ∧ ((∀ e, of b e → e < g.vtail → (x e).isZero = true) → h.elem v.vd 8 (place b) = 0)
        ∧ ∀ e s m k, of b e → e < g.vtail → x e = .fin s m k → m ≠ 0 →
          (∀ c, of b c → c < g.vtail → (x c).notFinite = false ∧ valueLt (x e).abs (x c).abs = false) →
          h.elem v.vd 8 (place b) = (max 0 (min ((Nat.log2 m : Int) + k - emax + 127) 254)).toNat)
      ∧ (∀ j, (∀ b, (∃ e, of b e) → place b ≠ j) → h.elem v.vd 8 j = g.elem v.vd 8 j)
      ∧ (∀ b, h.xflags.testBit b = true ↔
        g.xflags.testBit b = true ∨ (b = 0 ∧ ∃ e, g.active v.mreg e = true ∧ e < g.vtail ∧ (x e).sig = true))
      ∧ (v.xm = 1 → ∀ e, e < 2048 → ((h.mask v.xmd).getLsbD e = true ↔
        g.active v.mreg e = true ∧ e < g.vtail ∧ (x e).notFinite = true))
      ∧ ∀ e, g.scaleByte v.vb (quant g) v.va e = (
        let r := v.va + e / n
        g.elem v.vb 8 ((r - span * (r / span)) * (n / block) + e % n / block)))
    -- the planes of vbpack
    ∧ (∀ g : Grp,
      let at_ (e : Nat) : Nat := 8 * (v.imm / 16 % 256) + e
      let plane (h : Grp) (p u : Nat) : Bool := (h.elem v.vd 8 (256 * p + u / 8)).testBit (u % 8)
      let h := effVbpack g f []
      (∀ e p, g.active v.mreg e = true → at_ e < 2048 → p < 8 →
        plane h p (at_ e) = (decide (e < g.vtail) && (g.elem v.va 8 e).testBit (7 - p)))
      ∧ ∀ p u, p < 8 → u < 2048 → (∀ e, g.active v.mreg e = true → at_ e ≠ u) → plane h p u = plane g p u)
    -- the list of vrank
    ∧ (∀ (g : Grp) (mag : Bool),
      let t := g.typeOf v
      let w := typeWidth t
      let k := v.imm / 16 % 256 + 1
      let base := g.rankcfg.toNat / 2 ^ 32 % 2 ^ 15
      let x (e : Nat) : Nat := g.elem v.va w e
      let nan (e : Nat) : Prop := 8 ≤ t ∧ (readFloat t (x e)).isNan = true
      let key (e : Nat) : Nat := if mag then x e % 2 ^ (w - 1) else x e
      let coded (e : Nat) : Nat := base + e + (if mag && (x e).testBit (w - 1) then 0x8000 else 0)
      let above (a b : Nat) : Prop :=
        if t < 8 then intValue t (key b) < intValue t (key a) else valueLt (readFloat t (key b)) (readFloat t (key a)) = true
      let below (e : Nat) : Prop := g.active v.mreg e = true ∧ e < g.vtail
      let h := g.rank v mag
      t ∈ [8, 9, 10, 1, 2] → 4 ≤ g.regWords → base + g.vl ≤ 0x7FFF →
      ((∀ e, g.active v.mreg e = false) → h = g.putValid v [])
      ∧ ((∃ e, g.active v.mreg e = true) → ∃ l : List Nat,
        l.Nodup ∧ (∀ e, e ∈ l ↔ below e ∧ ¬nan e) ∧ l.Pairwise (fun a b => above a b ∨ (¬above b a ∧ a < b))
          ∧ ∀ j, j < k → h.elem v.vd w j = (if j < l.length then key (l.getD j 0) else 0)
            ∧ h.elem (v.vd + keys g k) 16 j = (if j < l.length then coded (l.getD j 0) else 0x7FFF))
      ∧ (∀ b, h.xflags.testBit b = true ↔
        g.xflags.testBit b = true ∨ (b = 0 ∧ 8 ≤ t ∧ ∃ e, below e ∧ (readFloat t (x e)).sig = true))
      ∧ (v.xm = 1 → ∀ e, e < 2048 → ((h.mask v.xmd).getLsbD e = true ↔ below e ∧ nan e))))
  -- the conversions of one element
  ∧ (∀ (d s rm : Nat) (sat : Bool) (x : Nat), d < 14 → s < 14 →
    let lo := (intRange d).1
    let hi := (intRange d).2
    let a := intValue s x
    (d = s → convertElem d s rm sat x = (x, 0))
    ∧ (d ≠ s → s < 8 → d < 8 → (typeWidth s < typeWidth d ∨ sat = false) →
      ((convertElem d s rm sat x).1 : Int) = a % 2 ^ typeWidth d ∧ (convertElem d s rm sat x).2 = 0)
    ∧ (d ≠ s → s < 8 → d < 8 → typeWidth d ≤ typeWidth s → sat = true →
      intValue d (convertElem d s rm sat x).1 = max lo (min hi a)
        ∧ (convertElem d s rm sat x).2 = (if max lo (min hi a) = a then 0 else 32))
    ∧ (s < 8 → 8 ≤ d → convertElem d s rm sat x = narrowFloat d rm sat (.fin (decide (a < 0)) a.natAbs 0))
    ∧ (8 ≤ s → d < 8 → ((convertElem d s rm sat x).1 : Int) = (floatToInt rm lo hi (readFloat s x)).1 % 2 ^ typeWidth d
      ∧ (convertElem d s rm sat x).2 = (floatToInt rm lo hi (readFloat s x)).2)
    ∧ (8 ≤ s → 8 ≤ d → d ≠ s → typeWidth d ≤ typeWidth s → convertElem d s rm sat x = narrowFloat d rm sat (readFloat s x))
    ∧ (8 ≤ s → 8 ≤ d → typeWidth s < typeWidth d → convertElem d s rm sat x = widenFloat d s x))
  ∧ (∀ (rm x : Nat) (sat : Bool), x < 256 →
    convertElem 8 14 rm sat x = (if x = 255 then 0x7FC00000 else if x = 0 then 0x00400000 else x * 2 ^ 23, 0))
  -- the merge of two lists of one entry
  ∧ (∀ (t k : Nat) (p q : Ranked), 2 ≤ k → nanKey t p.key = false → nanKey t q.key = false → p.entry ≠ 0x7FFF → q.entry ≠ 0x7FFF →
    let above (a b : Nat) : Prop := if t < 8 then intValue t b < intValue t a else valueLt (readFloat t b) (readFloat t a) = true
    let first (a b : Ranked) : Prop :=
      above a.key b.key ∨ (¬above b.key a.key ∧ a.entry % 2 ^ 15 < b.entry % 2 ^ 15)
    let filler : Ranked := ⟨0, 0x7FFF⟩
    (first p q → ¬above q.key p.key → mergeRanked t k [p] [q] = [p, q] ++ List.replicate (k - 2) filler)
    ∧ (first q p → ¬above p.key q.key → mergeRanked t k [p] [q] = [q, p] ++ List.replicate (k - 2) filler)
    ∧ (¬above p.key q.key → ¬above q.key p.key → p.entry % 2 ^ 15 = q.entry % 2 ^ 15 →
      ∃ r, mergeRanked t k [p] [q] = r :: List.replicate (k - 1) filler ∧ (r.key = p.key ∨ r.key = q.key)
        ∧ r.entry = min p.entry q.entry))
  ∧ ∀ f : FX,
    VectorRun (.mxext f) (fun g =>
      let d := f.afmt.toNat
      let t := f.bfmt.toNat
      let rm := if f.rm = 0 then g.vdrm else f.rm
      let es := g.activeList f.mreg.toNat
      let op (e : Nat) : Nat × Nat :=
        let a := g.tile f.acc.toNat e f.shape.toNat
        let x := g.scaleByte f.vs d f.reg e
        let y : FVal := if t = 2 then .fin (decide (toSigned 32 a < 0)) (toSigned 32 a).natAbs 0 else readFloat 8 a
        let z := y.scale (127 - (x : Int))
        if f.scl then
          (if x = 255 then (if d = 0 then (0, 1) else narrowFloat d rm f.sat (.nan false))
           else if d = 0 then (ofInt 8 (floatToInt rm (-128) 127 z).1, (floatToInt rm (-128) 127 z).2)
           else narrowFloat d rm f.sat z)
        else if d = 8 ∧ t = 8 then narrowFloat 8 rm f.sat (readFloat 8 a) else convertElem d t rm f.sat a
      (g.putAll f.reg (typeWidth d) (es.map (fun e => (e, (op e).1)))).vectorFlags
        ((es.filter (fun e => e < g.vtail)).foldl (fun b e => Nat.lor b (op e).2) 0))
    ∧ VectorRun (.mxmovIn f) (fun g =>
      (g.activeList f.mreg.toNat).foldl (fun h e => h.setTile f.acc.toNat e f.shape.toNat (g.elem f.reg 32 e)) g)
    ∧ VectorRun (.mxmovOut f) (fun g =>
      g.putAll f.reg 32 ((g.activeList f.mreg.toNat).map (fun e => (e, g.tile f.acc.toNat e f.shape.toNat))))
    ∧ VectorRun (.mxclr f) (fun g => { g with acc := g.acc.filter (fun p => p.1 / 4096 ≠ f.acc.toNat) })

/-- Reductions to a scalar (R221, R222): the elements that are active and below VTAIL with the initial value in s[sb]; the
scalar is written when the reduction completes. By value: an integer sum is exact, and wrapped or clamped once with SI
where that changes it; minimum, maximum and bitwise words give the same in every order; a float reduction follows the tree
of R222, of which `node j k` is node k of level j with the flags of its nodes, and takes the initial value last, on the
left. -/
def Obligations.VectorReductions : Prop :=
  ∀ f : FVS,
    (∀ p ∈ [(Instr.vredsum f, redSum), (.vredmin f, redWith opMin), (.vredmax f, redWith opMax),
      (.vredand f, redWith opAnd), (.vredor f, redWith opOr), (.vredxor f, redWith opXor)],
      ∀ s g, Alone s g → Passes g p.1 → g.exitTrap (g.entryOf p.1 {}) = none →
      let t := g.typeOf f.view
      let r := p.2 g f.view t ((g.reg f.sb.toNat).toNat % 2 ^ typeWidth t)
      ∃ s1 s2 s3 s4, exec p.1 s = .next s1 ∧ exec (.commit s.sched.cur) s1 = .next s2
        ∧ exec (.vectorIssue g.core) s2 = .next s3 ∧ exec (.reductionComplete s.sched.cur) s3 = .next s4
        ∧ Leaves s s4 g ((g.setReg f.sb.toNat (elemScalar t r.1)).vectorFlags r.2))
    ∧ (∀ (g : Grp) (t i : Nat), t < 8 → g.vl ≤ 2048 → i < 2 ^ typeWidth t →
      let v := f.view
      let w := typeWidth t
      let xs := (g.accessed v.mreg).map (fun e => g.elem v.va w e)
      let sum := intValue t i + (xs.map (intValue t)).sum
      let clamped := max (intRange t).1 (min (intRange t).2 sum)
      (v.sat ≠ 1 → (redSum g v t i).1 = (i + xs.sum) % 2 ^ w ∧ (redSum g v t i).2 = 0)
      ∧ (v.sat = 1 → intValue t (redSum g v t i).1 = clamped ∧ (redSum g v t i).2 = (if clamped = sum then 0 else 32))
      ∧ intValue t (redWith opMin g v t i).1 = xs.foldl (fun a x => min a (intValue t x)) (intValue t i)
      ∧ intValue t (redWith opMax g v t i).1 = xs.foldl (fun a x => max a (intValue t x)) (intValue t i)
      ∧ (redWith opAnd g v t i).1 = xs.foldl Nat.land i ∧ (redWith opOr g v t i).1 = xs.foldl Nat.lor i
      ∧ (redWith opXor g v t i).1 = xs.foldl Nat.xor i
      ∧ ∀ op ∈ [opMin, opMax, opAnd, opOr, opXor], (redWith op g v t i).2 = 0)
    ∧ ∀ (g : Grp) (t i : Nat) (node : Nat → Nat → Option (Nat × Nat)), t ∈ [8, 9, 10] → g.vl ≤ 2048 →
      let v := f.view
      let rm := g.rmOf v
      ∀ p ∈ [(redSum, fun a b => floatAdd t rm (readFloat t a) (readFloat t b)), (redWith opMin, fun a b => floatMinMax t false a b),
        (redWith opMax, fun a b => floatMinMax t true a b)],
        (∀ e, node 0 e = if g.active v.mreg e = true ∧ e < g.vtail then some (g.elem v.va (typeWidth t) e, 0) else none) →
        (∀ j k, node (j + 1) k =
          match node j (2 * k), node j (2 * k + 1) with
          | none, y => y
          | x, none => x
          | some x, some y => some ((p.2 x.1 y.1).1, Nat.lor (Nat.lor x.2 y.2) (p.2 x.1 y.1).2)) →
        p.1 g v t i =
          match node 11 0 with
          | none => (i, 0)
          | some x => ((p.2 i x.1).1, Nat.lor x.2 (p.2 i x.1).2)

/-! The vector queue, memory, the matrix engine, copies, forms and collectives. -/

/-- Every word that goes to the vector queue and is not in the statements above takes an entry there (R140, R147, R150,
R201, R227), with the scalar values it is to use; its own effect follows on its unit. `map` with NEST takes the next word
with it, or is ILLEGAL (detail 4) where that is no form that a pair may have (R238). -/
def Obligations.WordsThatEnterTheQueue : Prop :=
  (∀ f : FM,
    Enqueues (.vld f) [f.sa, f.sb] (some .ld) f.cf true
    ∧ (∀ i ∈ [Instr.vst f, .vaadd f, .vafadd f, .vaand f, .vaor f, .vaxor f, .vamin f, .vamax f, .vaswap f, .vacas f, .vcflush f,
        .vcwb f], Enqueues i [f.sa, f.sb] (some .st) f.cf true)
    ∧ Enqueues (.vlds f) [f.sa, f.sb] (some .sp) f.cf true ∧ Enqueues (.vsts f) [f.sa, f.sb] (some .sp) f.cf true
    ∧ Enqueues (.vldp f) [f.sa, 0] (some .sp) f.cf true ∧ Enqueues (.vstp f) [f.sa, 0] (some .sp) f.cf true
    ∧ ∀ i ∈ [Instr.rld f, .rst f, .raadd f, .rafadd f, .raor f, .ramin f, .ramax f, .raswap f, .rcas f],
        Enqueues i [f.sa, f.sb, f.sa + 1] (some .fb) f.cf true)
  ∧ (∀ f : FX, ∀ i ∈ [Instr.mxmul f, .mxmulZ f, .mxbp f, .mxbpZ f, .rkacc f],
      Enqueues i (specRegs f.sa ++ specRegs f.sb ++ specRegs f.sc) (some .mx) f.cf)
  ∧ (∀ f : FI, Enqueues (.ldattAtt f) [f.sa] (some .ld) 0 true ∧ Enqueues (.ldattRec f) [f.sa] (some .ld) 0 true)
  ∧ (∀ f : FC, Enqueues (.copy f) [f.sa, f.sb] (some .cp) f.cf
      ∧ Enqueues (.tcopy f) [f.sa, f.sb, f.sc, f.sd] (some .cp) f.cf ∧ Enqueues (.coll f) [f.sa, f.sb, f.sc, f.sd] none f.cf)
  ∧ (∀ f : FF, ∀ i ∈ [Instr.zip f, .reduce f, .scan f, .scanX f, .stencil f, .gapply f], Enqueues i (formReads f) none f.cf)
  ∧ ∀ f : FF,
    (f.nest = 0 → Enqueues (.map f) (formReads f) none f.cf)
    ∧ (∀ s g, f.nest ≠ 0 → AtTurn s g → (Instr.map f).check.reasons = [] → g.innerWord = none →
        TrapsAt (.map f) s g (illegal 4))
    ∧ ∀ s g i h, f.nest ≠ 0 → AtTurn s g → Passes g (.map f) → i.check.reasons = [] → g.innerWord = some (i, h) →
      Free g (formReads f ++ formReads h) → g.vqUsed + 2 ≤ 64 → (∀ k ∈ cfFlags g.header f.cf.toNat, g.flag k < 63) →
      ∃ t g' e, exec (.map f) s = .next t ∧ t.grp s.sched.cur = some g' ∧ { t with groups := s.groups, cores := s.cores } = s
        ∧ g'.vq = g.vq ++ [e] ∧ e.instr = .map f ∧ e.ops = (formReads f).map (fun r => g.reg r.toNat)
        ∧ e.inner = some (i, (formReads h).map (fun r => g.reg r.toNat)) ∧ e.pc = g.pc ∧ g'.pc = g.pc + 16
        ∧ g'.nextId = g.nextId + 2 ∧ Bare g' = Bare g

/-- Vector loads, stores, atomics and cache words of global memory on their way (R141, R306, R328-R332, R336-R339): the
probe finds the place of every element or the trap; the word commits; the vector unit starts it, and it takes the
registers' values with it; a load writes what memory holds to the register and is sampled by the monitors (R448), a store
and an atomic change memory element by element, a cache word changes no byte. The tokens that a word waits for are the
model's choice (log entry 25). -/
def Obligations.VectorMemory : Prop :=
  (∀ s tag g e w rest, s.grp tag = some g → g.vq = e :: rest → e.trap = none → e.probe = none → memWordOf e.instr = some w →
    w.remote = false → (∀ fl ∈ g.flights, fl.phase ≠ .ready) → g.hazard e.instr = false →
    (∀ info, g.exitTrap e = some info →
      exec (.daybreakProbe tag) s = .next (s.setGrp tag (g.setEntry { e with trap := some info })))
    ∧ (g.exitTrap e = none →
      (∀ s' accs, probeWord s g w e.ops = .ok s' accs →
        exec (.daybreakProbe tag) s = .next (s'.setGrp tag (g.setEntry { e with probe := some accs }))
          ∧ (w.f.fof = 0 → accs.map (fun a => (a.elem, a.va)) = g.addresses w.f e.ops
            ∧ ∀ a ∈ accs, a.va.toNat % a.size = 0 ∧ a.size = if w.op = .line then 1 else FM.esize g w.f / 8))
      ∧ ∀ s' info, probeWord s g w e.ops = .trap s' info →
        exec (.daybreakProbe tag) s = .next (s'.setGrp tag (g.setEntry { e with trap := some info }))
          ∧ info.elem ∈ g.accessed w.f.mreg.toNat))
  ∧ (∀ s tag g e w rest accs, s.grp tag = some g → g.vq = e :: rest → e.trap = none → e.probe = some accs →
    memWordOf e.instr = some w → w.remote = false → (∀ fl ∈ g.flights, fl.phase ≠ .ready) → g.hazard e.instr = false →
    ∃ g' fl, exec (.commit tag) s = .next (s.setGrp tag g') ∧ g'.vq = rest ∧ g'.flights = g.flights ++ [fl] ∧ fl.entry = e
      ∧ fl.phase = .ready ∧ fl.todo = accs ∧ ((w.op ≠ .load ∨ w.f.fof = 0) → g'.vl = g.vl ∧ g'.vtail = g.vtail))
  ∧ (∀ s tag g fl w, OnUnit s tag g fl → memWordOf fl.entry.instr = some w → w.remote = false → memReady s tag g w.f fl = true →
    fl.failed = [] → s.hasTokens g.core (wordTokens w fl) = true →
    let width := FM.esize g w.f
    ∃ t, exec (.vectorIssue g.core) s = .next t
      ∧ { t with groups := s.groups, cores := s.cores, dies := s.dies, draws := s.draws } = s
      ∧ (fl.todo ≠ [] ∨ w.op ≠ .load → t.dies = s.dies ∧ t.draws = s.draws)
      ∧ (g.activeList w.f.mreg.toNat = [] → t.grp tag = some (({ g with unissuedSince := none } : Grp).complete fl.entry))
      ∧ (g.activeList w.f.mreg.toNat ≠ [] → fl.todo ≠ [] →
        t.grp tag = some (({ g with unissuedSince := none } : Grp).setFlight
          { fl with phase := .accesses, width := width, vals := g.takeValues w width
                    got := if w.op = .load ∧ fl.trimmed = false then g.loadZeros w.f else [] })))
  ∧ (∀ s tag g fl w, UnderWay s tag g fl → memWordOf fl.entry.instr = some w → w.remote = false →
    (w.op = .line → exec (.vectorStorePerformed tag) s = .next (s.setGrp tag (g.complete fl.entry)))
    ∧ (fl.todo ≠ [] → (acquires fl.entry.instr && fl.todo.any s.arrivingAt) = false → (∀ a ∈ fl.todo, ∃ pa, a.target = .phys pa) →
      (w.op = .load → g.readAhead = [] →
        exec (.loadReturn tag) s = .next (sampleCore (s.setGrp tag ((g.putAll w.f.vd.toNat fl.width
          (fl.got ++ fl.todo.map (fun a => (a.elem, s.memRead (physOf a) (fl.width / 8))))).complete fl.entry)) g.core 1 g.part none))
      ∧ (w.op = .store →
        exec (.vectorStorePerformed tag) s =
          .next ((fl.todo.foldl (fun (s : State) a => s.memWrite (physOf a) (fl.width / 8) (valueFor fl.vals a.elem).1) s).setGrp tag
            (g.complete fl.entry))))
    ∧ (∀ a rest pa, fl.todo = a :: rest → a.target = .phys pa → w.op.kind = .atomic →
      (acquires fl.entry.instr && fl.todo.any s.arrivingAt) = false →
      let old := s.memRead pa (fl.width / 8)
      let v := valueFor fl.vals a.elem
      let s1 : State := match w.op with
        | .atomic fn u _ => s.memWrite pa (fl.width / 8) (atomicValue fn fl.width u old v.1)
        | _ => if old = v.1 then s.memWrite pa (fl.width / 8) v.2 else s
      let f1 : Flight := { fl with todo := rest, got := fl.got ++ [(a.elem, old)] }
      exec (.atomicPerform tag) s = .next (s1.setGrp tag (if rest = [] then
        (if w.op.writesReg then g.putAll w.f.vd.toNat fl.width f1.got else g).complete fl.entry else g.setFlight f1))))
  ∧ (∀ f : FM, VectorRun (.vprefetch f) (fun g => g))
  ∧ ∀ (bits d v : Nat), bits = 32 ∨ bits = 64 → d < 2 ^ bits → v < 2 ^ bits →
    atomicValue 0 bits false d v = (d + v) % 2 ^ bits ∧ atomicValue 2 bits false d v = Nat.land d v
    ∧ atomicValue 3 bits false d v = Nat.lor d v ∧ atomicValue 4 bits false d v = Nat.xor d v
    ∧ atomicValue 7 bits false d v = v ∧ atomicValue 5 bits true d v = min d v ∧ atomicValue 6 bits true d v = max d v
    ∧ toSigned bits (atomicValue 5 bits false d v) = min (toSigned bits d) (toSigned bits v)
    ∧ toSigned bits (atomicValue 6 bits false d v) = max (toSigned bits d) (toSigned bits v)

/-- Remote words (R354-R357, R366): the vector unit sends one request with the elements that the masks let through, under
the partition's tag; its answer writes the register of a word that has one, and ends it; the monitors sample an `rld`
(R448). That the padding elements of an `rld` keep what they hold is the model's choice (log entry 35). -/
def Obligations.RemoteWords : Prop :=
  (∀ s tag g fl w, OnUnit s tag g fl → memWordOf fl.entry.instr = some w → w.remote = true → memReady s tag g w.f fl = true →
    remoteReady s g fl = true →
    let es := g.accessed w.f.mreg.toNat
    let dst := targetSpec fl.entry.ops % 2 ^ 13
    let width := FM.esize g w.f
    ∃ t, exec (.vectorIssue g.core) s = .next t ∧ t.mem = s.mem ∧ t.spad = s.spad
      ∧ (es = [] → t.grp tag = some (({ g with unissuedSince := none } : Grp).complete fl.entry) ∧ t.fabric = s.fabric)
      ∧ (es ≠ [] →
        t.grp tag = some (({ g with unissuedSince := none } : Grp).setFlight
          { fl with phase := .remote, width := width, vals := g.takeValues w width, waits := [(dst, s.nextSeq dst)] })
        ∧ ∃ r p, r ∈ t.fabric.requests ∧ r.who = .vector tag fl.entry.id ∧ r.dst = dst ∧ r.seq = s.nextSeq dst
          ∧ r.what = .packet p ∧ p.dst = dst ∧ p.seq = s.nextSeq dst ∧ p.src = s.fabric.device ∧ p.leased = false
          ∧ p.ftag = (s.partAt g.part).pftag ∧ p.mask = es ∧ p.esize = width ∧ p.kind = w.op.packetKind
          ∧ r.group = (if bitOf (targetSpec fl.entry.ops) 18 then some (targetSpec fl.entry.ops / 2 ^ 16 % 4) else none)
          ∧ (w.op = .store → p.data = es.map (fun e => g.elem w.f.vd.toNat width e))))
  ∧ ∀ s r tag g fl w data reason, s.grp tag = some g → g.flights = [fl] → r.who = .vector tag fl.entry.id →
    fl.waits = [(r.dst, r.seq)] → fl.phase = .remote → fl.failed = [] → fl.got = [] → memWordOf fl.entry.instr = some w →
    (∀ p, r.what = .packet p → p.leased = false) →
    let u := s.setGrp tag ((if w.op.writesReg then g.putAll w.f.vd.toNat fl.width ((r.mask.map (fun e => r.first + e)).zip data)
      else g).complete fl.entry)
    answerRequest s r [] data reason = if w.op = .load then sampleCore u g.core 1 g.part none else u

/-- Scratchpad words of the group's own area and of a peer's (R297-R299, R326-R329, R333-R335): the bytes that each reads
or writes; an element of a peer word that its index does not reach sets its bit of m[FMD], and a load's value of it is +0. -/
def Obligations.VectorScratchpad : Prop :=
  (∀ f : FM, ∀ s g, Alone s g → Passes g (.vlds f) → g.exitTrap (g.entryOf (.vlds f) { reads := [f.sa, f.sb] }) = none →
    let w := FM.esize g f
    let offs := g.spadOffsets f [g.reg f.sa.toNat, g.reg f.sb.toNat]
    ∃ s1 t, exec (.vlds f) s = .next s1 ∧ exec (.commit s.sched.cur) s1 = .next t
      ∧ Leaves s t g ((g.putAll f.vd.toNat w
        (offs.map (fun p => (p.1, s.spadRead g.core p.2.toNat (w / 8))) ++ g.loadZeros f)).afterOrd f.ord.toNat))
  ∧ (∀ f : FM, ∀ s g, Alone s g → Passes g (.vsts f) → g.exitTrap (g.entryOf (.vsts f) { reads := [f.sa, f.sb] }) = none →
    let w := FM.esize g f
    let offs := g.spadOffsets f [g.reg f.sa.toNat, g.reg f.sb.toNat]
    ∃ s1 t, exec (.vsts f) s = .next s1 ∧ exec (.commit s.sched.cur) s1 = .next t
      ∧ Leaves s { t with spad := s.spad } g (g.afterOrd f.ord.toNat)
      ∧ (∀ k, (∀ p ∈ offs, k < spadKey g.core p.2.toNat ∨ spadKey g.core p.2.toNat + w / 8 ≤ k) →
        Memory.read t.spad k = Memory.read s.spad k)
      ∧ (f.am = 3 ∨ (offs.map Prod.snd).Nodup →
        t.spad = (offs.foldl (fun (u : State) p => u.spadWrite g.core p.2.toNat (w / 8) (g.elem f.vd.toNat w p.1)) s).spad))
  ∧ (∀ f : FM, ∀ s tag g fl, OnUnit s tag g fl → fl.entry.instr = .vldp f ∨ fl.entry.instr = .vstp f →
    spadReady s tag g f fl.entry.id = true →
    let w := FM.esize g f
    let load := decide (fl.entry.instr = .vldp f)
    let accs := (g.accessed f.mreg.toNat).map (fun e => (⟨e, w / 8, 0, .peer (ofInt 32 (g.index f.vi.toNat e))⟩ : Access))
    ∃ t, exec (.vectorIssue g.core) s = .next t ∧ { t with groups := s.groups } = s
      ∧ t.grp tag = some (({ g with unissuedSince := none } : Grp).setFlight
        { fl with phase := .accesses, width := w, todo := accs
                  vals := if load then [] else accs.map (fun a => (a.elem, g.elem f.vd.toNat w a.elem, 0))
                  got := if load then g.loadZeros f else [] }))
  ∧ ∀ f : FM, ∀ s tag g fl a word, s.grp tag = some g → g.flights = [fl] → fl.phase = .accesses → fl.failed = [] →
    fl.todo = [a] → a.target = .peer word → g.readAhead = [] →
    (fl.entry.instr = .vldp f →
      exec (.peerScratchpadReturn tag) s = .next (s.setGrp tag ((match peerKey s g word a.size with
        | some (c, off) =>
          (g.putAll f.vd.toNat fl.width (fl.got ++ [(a.elem, s.spadRead c off a.size)])).setMask (f.sb.toNat % 8) (maskOfList [])
        | none =>
          (g.putAll f.vd.toNat fl.width (fl.got ++ [(a.elem, 0)])).setMask (f.sb.toNat % 8) (maskOfList [a.elem])).complete fl.entry)))
    ∧ (fl.entry.instr = .vstp f →
      exec (.peerScratchpadReturn tag) s = .next (match peerKey s g word a.size with
        | some (c, off) => (s.spadWrite c off a.size (valueFor fl.vals a.elem).1).setGrp tag
            ((g.setMask (f.sb.toNat % 8) (maskOfList [])).complete fl.entry)
        | none => s.setGrp tag ((g.setMask (f.sb.toNat % 8) (maskOfList [a.elem])).complete fl.entry)))

/-- The tables of a rank engine (R285, R286): the load ends with the whole table replaced by the 4,096 bytes read. -/
def Obligations.RankTables : Prop :=
  (∀ s tag g e att f rest, s.grp tag = some g → g.vq = e :: rest → e.trap = none → e.probe = none →
    tableWord e.instr = some (att, f) → (∀ fl ∈ g.flights, fl.phase ≠ .ready) → g.hazard e.instr = false →
    g.exitTrap e = none →
    let a := tableAddr f e.ops
    (a.toNat % 64 ≠ 0 → exec (.daybreakProbe tag) s = .next (s.setGrp tag (g.setEntry { e with trap := some (alignTrap a) })))
    ∧ ∀ s' accs, a.toNat % 64 = 0 → probePieces g.part s [] [] (tablePieces a) = .ok s' accs →
      exec (.daybreakProbe tag) s = .next (s'.setGrp tag (g.setEntry { e with probe := some accs }))
        ∧ accs.map (fun x => (x.va, x.size)) = (upTo 64).map (fun i => (a + BitVec.ofNat 64 (64 * i), 64)))
  ∧ (∀ s tag g fl att f, s.grp tag = some g → g.flights = [fl] → fl.phase = .accesses → fl.vals = [] → g.readAhead = [] →
    tableWord fl.entry.instr = some (att, f) → (∀ a ∈ fl.todo, ∃ pa, a.target = .phys pa) →
    let xs := fl.todo.map (fun a => s.memRead (physOf a) a.size)
    let h : Grp := if att then { g with att := tableFrom xs, attbase := tableAddr f fl.entry.ops }
      else { g with recon := tableFrom xs, recbase := tableAddr f fl.entry.ops }
    ∃ t, exec (.loadReturn tag) s = .next t ∧ t.mem = s.mem ∧ t.grp tag = some (h.complete fl.entry))
  ∧ ∀ (xs : List Nat) (i : Nat), xs.length = 64 → i < 2048 →
    (FMap.get tableReset (tableFrom xs) i).toNat = xs.getD (i / 32) 0 / 2 ^ (16 * (i % 32)) % 2 ^ 16

/-- A pass of the matrix engine (R249-R269, R287-R290): its probe; one without a row completes at once; its request enters
the reservation table, has its operands pinned, is granted and commits, sampled by the monitors (R448), occupies the
engine for its cycles, and writes its rows. The model's choices: a list entry that a probe reads takes one token, and an
entry as many as it has sectors to pin (log entry 25); when an entry whose operands alone pass the pin limit has room (log
entry 36). -/
def Obligations.MatrixPass : Prop :=
  (∀ s tag g e p rest, s.grp tag = some g → g.vq = e :: rest → e.trap = none → e.probe = none → passOf e.instr = some p →
    (∀ fl ∈ g.flights, fl.phase ≠ .ready) → g.hazard e.instr = false →
    (∀ info, g.passTrap p e.ops = some info →
      exec (.daybreakProbe tag) s = .next (s.setGrp tag (g.setEntry { e with trap := some info })))
    ∧ (g.passTrap p e.ops = none → p.live g = false →
      exec (.daybreakProbe tag) s = .next (s.setGrp tag (g.setEntry { e with probe := some [] })))
    ∧ (g.passTrap p e.ops = none → p.live g = true → p.kind ≠ .rank ∨ nextListEntry (lenOf e.ops) e.reads (p.rows g) = none →
      (∀ s' accs, probePieces g.part s e.seen [] (p.pieces g e.ops e.reads) = .ok s' accs →
        exec (.daybreakProbe tag) s = .next (s'.setGrp tag (g.setEntry { e with probe := some accs }))
          ∧ accs.map (fun a => (a.elem, a.va)) = (p.pieces g e.ops e.reads).map (fun q => (q.1, q.2.va)))
      ∧ ∀ s' info, probePieces g.part s e.seen [] (p.pieces g e.ops e.reads) = .trap s' info →
        exec (.daybreakProbe tag) s = .next (s'.setGrp tag (g.setEntry { e with trap := some info })))
    ∧ ∀ m r l t seen s1 s' x, g.passTrap p e.ops = none → p.live g = true → p.kind = .rank →
      nextListEntry (lenOf e.ops) e.reads (p.rows g) = some (m, r) → g.writesDone e.id = true → g.acquireOlder e.id = false →
      let a := strided (descWord e.ops 0 0) m (strideAt (descWord e.ops 0 1) 0) (2 * r)
      translateOnce s g.part a .read e.seen = (.ok l t, s1, seen) →
      readAt s1 (g.agent tag unitMatrix e.id e.pc e.hdr) a 2 t = .ok s' x → g.readAhead = [] →
      (s'.hasTokens g.core 1 = true → exec (.daybreakProbe tag) s =
        .next ((s'.spend g.core 1).setGrp tag (g.setEntry { e with reads := e.reads ++ [(m, r, x)], seen := seen })))
      ∧ (s'.hasTokens g.core 1 = false → (s'.coreAt g.core).asking = false →
        exec (.daybreakProbe tag) s = .next (s'.askPort g.core)))
  ∧ (∀ s tag g e p rest accs, s.grp tag = some g → g.vq = e :: rest → e.trap = none → e.probe = some accs →
    passOf e.instr = some p → (∀ fl ∈ g.flights, fl.phase ≠ .ready) → p.live g = false →
    exec (.commit tag) s = .next (s.setGrp tag (g.commitDone e)))
  ∧ (∀ s tag g e p rest accs, Assoc.wf s.groups = true → s.grp tag = some g →
    (∀ q ∈ s.groups, clusterOf q.2.core = clusterOf g.core → q.1 = tag) → g.vq = e :: rest → e.trap = none →
    e.probe = some accs → passOf e.instr = some p → p.live g = true →
    let c := clusterOf g.core
    (s.clusterAt c).table = [] →
    exec (.reservationEnter tag) s = .next (s.setCluster c { s.clusterAt c with
      table := [{ gtag := tag, id := e.id, prio := g.placePrio, entered := s.cycle }] }))
  ∧ (∀ s c g en e accs, (s.clusterAt c).table = [en] → en.ready = false → s.grp en.gtag = some g → g.behind en.id = some (e, accs) →
    g.writesDone en.id = true → g.acquireOlder en.id = false → (∀ a ∈ accs, ∃ pa, a.target = .phys pa) →
    let pins := s.sectorsOf accs
    let cost := (pins.filter (fun x => !en.pins.contains x)).length
    s.pinRoom c en pins = true → s.hasTokens g.core cost = true →
    exec (.tileFetch c) s =
      .next ((s.spend g.core cost).setCluster c { s.clusterAt c with table := [{ en with ready := true, pins := pins }] }))
  ∧ (∀ s c g en e p rest, (s.clusterAt c).granted = none → (s.clusterAt c).table = [en] → en.ready = true →
    s.grp en.gtag = some g → g.vq = e :: rest → e.id = en.id → passOf e.instr = some p → p.kind ≠ .rank →
    let cycles := match p.kind with
      | .mul => 16 * ((g.vl + 31) / 32) | .planes => 2 * p.planes * ((g.vl + 31) / 32) | .rank => 0
    let en' := { en with ends := s.cycle + cycles }
    let fl : Flight := { entry := e, phase := .matrix, todo := e.probe.getD [], got := (p.rows g).map (fun m => (m, 0)) }
    exec (.matrixGrant c) s = .next (sampleCore
      ((s.setGrp en.gtag ({ g with vq := rest, flights := g.flights ++ [fl] } : Grp).freeUndo).setCluster c
        { s.clusterAt c with granted := some en', table := [en'] }) g.core 4 g.part (some (s.cycle - en.entered))))
  ∧ (∀ s c g en fl p, (s.clusterAt c).granted = some en →
    (s.cycle < en.ends → exec (.matrixPassEnd c) s = .next s)
    ∧ (en.ends ≤ s.cycle → s.grp en.gtag = some g → g.flights = [fl] → fl.entry.id = en.id → fl.phase = .matrix →
      passOf fl.entry.instr = some p → en.early = [] → g.readAhead = [] → (∀ a ∈ fl.todo, ∃ pa, a.target = .phys pa) →
      let e := fl.entry
      let rows := fl.got.map Prod.fst
      let vals := (p.grantedPieces e.ops e.reads rows).zip (fl.todo.map (fun a => s.memRead (physOf a) a.size))
      let r := g.runPass p e.ops e.reads rows vals
      ∃ t, exec (.matrixPassEnd c) s = .next t ∧ t.mem = s.mem ∧ t.grp en.gtag = some ((r.1.vectorFlags r.2).complete e)
        ∧ (t.clusterAt c).granted = none))
  ∧ ∀ (p : Pass) (c row cols n : Nat), isIntCode p.f.afmt.toNat = true →
    p.mulWord c row cols n = (ofInt 32 (c + ((upTo p.stored).map (fun j =>
      let x := p.storedAt row j
      intValue p.f.afmt.toNat x.1 * intValue p.f.bfmt.toNat (p.colAt cols x.2 n))).sum), 0)

/-- Copies (R343-R350): a copy is posted at its commit; the engine accepts it once its descriptor is read, or ends it with
an error; its bytes are moved in the order of R345; it ends with its counter raised; a fault leaves what was written and
ends it; a triggered copy joins its queue when its counter has come. -/
def Obligations.Copies : Prop :=
  (∀ s tag g e rest f, s.grp tag = some g → g.vq = e :: rest → e.trap = none → (∀ fl ∈ g.flights, fl.phase ≠ .ready) →
    g.hazard e.instr = false →
    ∀ triggered, e.instr = (if triggered then .tcopy f else .copy f) →
    let u := s.coreAt g.core
    let room := if triggered then u.armRoom else u.queueRoom f.q.toNat
    (room = false → exec (.commit tag) s = .next s)
    ∧ (room = true →
      ∃ t g', exec (.commit tag) s = .next t ∧ t.mem = s.mem ∧ t.grp tag = some g' ∧ g'.vq = rest
        ∧ g'.flights = g.flights ++ [{ entry := e, phase := .post }]
        ∧ (t.coreAt g.core).copies = u.copies ++ [jobOf tag g e triggered f]))
  ∧ (∀ s s' c j ds, (s.coreAt c).copies = [j] → j.read = none → j.failed = none → j.trigger = none → j.desc.toNat % 64 = 0 →
    s.hasTokens c 2 = true → readDwords s (j.agent unitTable) j.desc 8 = .ok s' ds →
    let s1 := (s'.forget (j.agent unitTable)).spend c 2
    let k : CopyJob := if j.badDesc ds then { j.fail 0x16 j.desc with read := some (copyDesc ds) }
      else { j with read := some (copyDesc ds) }
    exec (.copyPostAccept c) s = .next ((acceptPost s1 k).setJob c k))
  ∧ (∀ s c q j d, (s.coreAt c).headCopy q = some j → j.failed = none → j.read = some d → copyMayRead s j = true →
    (∀ s' k, moveBytes c d false s j j.written (d.total - j.written) = .all s' k →
      exec (.copyComplete c q) s = .next (endCopy s' c (k.upTo d.total)))
    ∧ (∀ s' k n a r, moveBytes c d false s j j.written (d.total - j.written) = .fault s' k n a r →
      ∀ bytes t k', n - j.written ≤ bytes →
        (moveBytes c d true s' k n (min (bytes - (n - j.written)) (d.total - n)) = .all t k'
          ∨ ∃ m b u, moveBytes c d true s' k n (min (bytes - (n - j.written)) (d.total - n)) = .fault t k' m b u) →
        exec (.copyfault c q bytes) s = .next (endCopy t c { k'.fail 0x17 a with failDetail := r })))
  ∧ (∀ s c (j : CopyJob) (d : CopyDesc), d.ssp = true → d.dsp = true → d.cnt1 = 1 → d.cnt2 = 1 → d.len0 ≠ 0 → j.early = [] →
    j.written = 0 → j.buffer = [] →
    (∀ i k, i < d.len0 → k < d.len0 → d.src.toNat + i ≠ d.dst.toNat + k) →
    ∃ t k, moveBytes c d false s j 0 d.total = .all t k ∧ t.mem = s.mem
      ∧ (∀ i, i < d.len0 → t.spadRead c (d.dst.toNat + i) 1 = s.spadRead c (d.src.toNat + i) 1)
      ∧ ∀ k, k < spadKey c d.dst.toNat ∨ spadKey c d.dst.toNat + d.len0 ≤ k → Memory.read t.spad k = Memory.read s.spad k)
  ∧ (∀ s (w : Agent) (addr : W64) err (fb : Report),
    raiseCounter s w 0 err fb = .done s
    ∧ (∀ l pa s1, addr ≠ 0 → translate s w.part addr .atomic = (.ok l (.phys pa), s1) →
      raiseCounter s w addr err fb = .done ((s1.memWrite pa 8 (counterNext (s1.memRead pa 8) err)).forget w)))
  ∧ (∀ s c (j : CopyJob), j.counter = 0 → j.failed = none → j.feed = false →
    ∃ t, closeCopy s c j = some t ∧ t = (let s1 := returnCp s j
      let u := s1.coreAt c
      s1.setCore c { u with copies := u.copies.filter (fun h => !h.same j) }))
  ∧ ∀ s c j d a threshold s', (s.coreAt c).copies = [j] → j.read = some d → j.failed = none → j.closed = false →
    j.trigger = some (a, threshold) → j.met = false →
    (readTrigger s j a threshold = .met s' →
      exec (.tcopyFire c) s =
        .next (if (s'.coreAt c).queueRoom j.queue then fireCopy s' c j else s'.setJob c { j with met := true }))
    ∧ (readTrigger s j a threshold = .unmet s' →
      exec (.tcopyFire c) s = .next s ∨ exec (.tcopyFire c) s = .next s')
    ∧ (∀ r, readTrigger s j a threshold = .failed s' r →
      exec (.tcopyFire c) s = .next (endCopy s' c { j.fail 0x18 a with failDetail := r }))

/-- The element count N of a form (R229): the COUNT of SA for `reduce` and `scan`, else the COUNT of the destination
stream. -/
def Obligations.FormElementCount : Prop :=
  ∀ s tag g e k f rest t g' run, s.grp tag = some g → g.vq = e :: rest → formOf e.instr = some (k, f) → g.form = none →
    exec (.formCheck tag) s = .next t → t.grp tag = some g' → g'.form = some run →
    run.n = (e.ops.getD (match k with | .reduce | .scan _ => 1 | _ => 10) 0).toNat % 2 ^ 32

/-- Forms (R225-R248): the checks before a form begins; an element group probed and committed; the fold of R234 under the
attributes that its block has; the end of a form's writes; and `fbar`. The model's choices: the index 0xFF in the event of
a block that does not fit (log entry 31), and the tokens that an element group takes (log entry 25). -/
def Obligations.Forms : Prop :=
  (∀ s tag g e k f rest, s.grp tag = some g → g.vq = e :: rest → formOf e.instr = some (k, f) → e.inner = none → g.form = none →
    e.trap = none → (∀ fl ∈ g.flights, fl.phase ≠ .ready) → g.acquireOlder e.id = false →
    (∀ s' i, fetchBlock s tag g e f.lbid.toNat = .trap s' i → exec (.formCheck tag) s = .next (s'.setGrp tag (g.trapHead i)))
    ∧ ∀ s' b, fetchBlock s tag g e f.lbid.toNat = .ok s' b →
      (blockMisfit k f b false = true →
        exec (.formCheck tag) s = .next (s'.setGrp tag (g.trapHead (badLambda 0x0B 0xFF f.lbid.toNat))))
      ∧ (blockMisfit k f b false = false →
        (specsBad g k f b e.ops false || decide ((feedStreams f e.ops).length > 1)) = true →
        exec (.formCheck tag) s = .next (s'.setGrp tag (g.trapHead (illegal 0x0A))))
      ∧ (blockMisfit k f b false = false → specsBad g k f b e.ops false = false → feedStreams f e.ops = [] →
        ∃ t, exec (.formCheck tag) s = .next t ∧ t.mem = s'.mem
          ∧ t.grp tag = some ({ g with
              form := some { outer := b, n := elementCount k e.ops }
              formId := if g.progress.v then g.formId else e.id } : Grp)))
  ∧ (∀ s tag g e k f run, s.grp tag = some g → g.headForm = some (e, k, f) → g.form = some run → e.trap = none →
    (∀ fl ∈ g.flights, fl.phase ≠ .ready) →
    let v : FormView := ⟨tag, g, e, run.feed, f.ext.getLsbD 3⟩
    (run.plan = none → g.ownWrites e.id = none → g.formHazard e k f run = false →
      (∀ s' steps extra, planGroup v s run k f = .ok s' steps extra →
        s'.hasTokens g.core (planTokens run.early steps extra) = true →
        exec (.elementGroupProbe tag) s = .next ((s'.spend g.core (planTokens run.early steps extra)).setGrp tag
          { g with formPast := s'.formPast tag, form := some { run with plan := some steps } }))
      ∧ ∀ s' i, planGroup v s run k f = .trap s' i → exec (.elementGroupProbe tag) s = .next (groupTrap s' tag g k f run i))
    ∧ ∀ steps s' xs, run.plan = some steps → readSteps v run.early s steps = .ok (s', xs) →
      exec (.elementGroupCommit tag) s =
        .next ((commitGroup s' tag { g with formPast := s'.formPast tag } e k f run steps xs).forget (g.agent tag unitStream e.id e.pc e.hdr)))
  ∧ (∀ (k : FormKind) (f : FF) ops (b : Block) (c : Computed) i reads d xs, k = .map ∨ k = .zip ∨ k = .gapply →
    let r := b.apply (((streamFields f).map (specOf ops)).zipWith (fun sp x => Spec.extend sp x) xs)
    let c' := computeStep k f ops b none c (.elem i reads (some d)) xs
    c'.outs = c.outs ++ [(d, r.1)] ∧ c'.flags = Nat.lor c.flags r.2 ∧ c'.e = i + 1)
  ∧ (∀ (b : Block) attrs d x t, let w := if b.pair then 64 else 32
    let op (x y : Nat) : Nat := (b.combine x y).1
    (∀ x y, x < 2 ^ w → y < 2 ^ w → op x y < 2 ^ w) →
    (bitOf attrs 0 = true → ∀ x y z, x < 2 ^ w → y < 2 ^ w → z < 2 ^ w → op (op x y) z = op x (op y z)) →
    (bitOf attrs 1 = true → ∀ x y, x < 2 ^ w → y < 2 ^ w → op x y = op y x) →
    (bitOf attrs 2 = true → b.ident < 2 ^ w ∧ ∀ x, x < 2 ^ w → op b.ident x = x ∧ op x b.ident = x) →
    (bitOf attrs 3 = true → bitOf attrs 0 = true ∧ ∀ x, x < 2 ^ w → op x x = x) → (∀ y ∈ x :: t, y < 2 ^ w) →
    (foldAllowed b attrs d (x :: t)).1 = t.foldl op x)
  ∧ (∀ (b : Block) attrs d x t, bitOf attrs 0 = false → bitOf attrs 2 = false → bitOf attrs 3 = false →
    foldAllowed b attrs d (x :: t) =
      t.foldl (fun r y => ((b.combine r.1 y).1, Nat.lor r.2.1 (b.combine r.1 y).2, r.2.2)) (x, 0, d))
  ∧ (∀ s tag g fl k f, s.grp tag = some g → g.flights = [fl] → fl.phase = .formWrites → (∀ e ∈ g.vq, e.id ≠ fl.entry.id) →
    formOf fl.entry.instr = some (k, f) → fl.waits = [] →
    (∀ a ∈ fl.todo, (∃ pa, a.target = .phys pa) ∧ g.flightOverlap fl.entry.id a = false) →
    ∃ t, exec (.formComplete tag) s = .next t ∧ t.grp tag = some (g.complete fl.entry)
      ∧ (k ≠ .gapply → t.mem =
        (fl.todo.foldl (fun (u : State) a => u.memWrite (physOf a) a.size (valueFor fl.vals a.elem).1) s).mem))
  ∧ ∀ (f : FS) s g, AtTurn s g →
    let cond := f.ext.getLsbD 0
    let zero := decide (g.reg f.sa.toNat = 0)
    let s1 := if f.ext.getLsbD 1 then
      s.setCore g.core { s.coreAt g.core with
        blocks := (s.coreAt g.core).blocks.filter (fun k => k.launch ≠ g.launch)
        blockPast := (s.coreAt g.core).blockPast.filter (fun k => k.1 ≠ g.launch) } else s
    let g1 : Grp := { g with formPast := [] }
    ((Instr.fbar f).check.reasons = [] → cond = true → g.nextWord.any isFormWord = false → TrapsAt (.fbar f) s g (illegal 4))
    ∧ (Passes g (.fbar f) → (cond = true → g.nextWord.any isFormWord = true) → Free g [f.sa] → Drained g →
      ((∃ h ∈ g.flights, (formOf h.entry.instr).isSome = true) → exec (.fbar f) s = .next s)
      ∧ ((∀ h ∈ g.flights, formOf h.entry.instr = none) →
        ((cond && zero) = false → ∃ g', exec (.fbar f) s = .next (s1.setGrp s.sched.cur g') ∧ NextWord g1 g')
        ∧ ∀ w, (cond && zero) = true → g.nextWord = some w →
          ∃ g', exec (.fbar f) s = .next (s1.setGrp s.sched.cur g') ∧ Bare g' = Bare g1
            ∧ g'.pc = g.pc + 8 + BitVec.ofNat 64 (8 * g.skipCount w)))

/-- Collectives (R401-R413): the post; the signing, or the failure with the lowest reason; the messages between members
and rank 0; the timeout of rank 0; the transfers; the combining on a switch and of elements. The model's readings: of
several reasons the lowest is reported, and what an ABORT that finds a member still signed reports (log entry 28; where
the manual states no reason, log entry 16, tag 17). -/
def Obligations.Collectives : Prop :=
  (∀ s tag g e f rest, s.grp tag = some g → g.vq = e :: rest → e.trap = none → (∀ fl ∈ g.flights, fl.phase ≠ .ready) →
    g.hazard e.instr = false → e.instr = .coll f →
    ((s.collsOf (dieOf g.core)).length ≥ 16 ∨ g.quietBefore e.id (collScope f) = false → exec (.commit tag) s = .next s)
    ∧ ((s.collsOf (dieOf g.core)).length < 16 → g.quietBefore e.id (collScope f) = true →
      ∃ t g', exec (.commit tag) s = .next t ∧ t.colls = s.colls ++ [collOf s tag g e] ∧ t.mem = s.mem ∧ t.grp tag = some g'
        ∧ g'.vq = rest ∧ g'.flights = g.flights ++ [{ entry := e, phase := .collective }]))
  ∧ (∀ s die c, s.collsOf die = [c] → c.phase = .posted →
    (∀ s' reason c', readColl s c = .bad s' reason c' → reason ≠ 4 →
      exec (.collSign die) s = .next (failColl (completeColl (s'.forget c.agent) c) c' 0x1E reason))
    ∧ ∀ s' c', readColl s c = .ok s' c' → c'.rank ≠ 0 → c'.members ≠ [] → s'.postedColls.contains c'.key = false →
      ∃ t, exec (.collSign die) s = .next t ∧ t.mem = s'.mem ∧ t.postedColls = s'.postedColls ++ [c'.key]
        ∧ t.colls = s'.colls.filterMap (fun d => if d.same c then some { c' with phase := .signed } else some d))
  ∧ (∀ s (m : CollMsg), s.root.failedStage = 0 →
    ∀ p ∈ [(Instr.signature m, 1), (.go m, 2), (.abort m, 3), (.sent m, 4), (.collectiveDone m, 5)],
      (m.dst ≠ s.fabric.device → exec p.1 s = .next s)
      ∧ (m.dst = s.fabric.device → m.reserved = true → exec p.1 s = .next s.drop)
      ∧ (m.dst = s.fabric.device → m.reserved = false → (s.window m.src).look m.seq = .fresh →
        (takeMessage s p.2 m = none → exec p.1 s = .next (s.dropMessage p.2 m))
        ∧ ∀ t, takeMessage s p.2 m = some t →
          exec p.1 s = .next (t.answer m.src m.seq (messageAck t.fabric.device p.2 m))))
  ∧ (∀ s (m : CollMsg) c, s.instance_ m.ddie m.collid m.inst m.nmem = some c →
    (c.phase = .signed → takeMessage s 2 m = some (settleSending s { c with phase := .sending }))
    ∧ (c.phase = .sent → takeMessage s 5 m = some (closeColl s c 0))
    ∧ (m.srank = 0 ∨ m.drank ≠ 0 →
      
        (c.phase ≠ .signed → takeMessage s 3 m = some (closeColl s c m.cause))
        ∧ (c.phase = .signed → m.cause = 0x1F → takeMessage s 3 m = some (failColl s c 0x1F m.reason))
        ∧ (c.phase = .signed → m.cause ≠ 0x1F → ∃ reason, takeMessage s 3 m = some (failColl s c 0x1F reason))))
  ∧ (∀ s (k : Coord) x, k.members ≠ [] → k.sigs.head?.map Prod.snd = some x →
    (k.sigs.any (fun q => decide (q.2 ≠ x)) = true → judge s k = s.abortAll k 0x1F 1)
    ∧ (k.sigs.any (fun q => decide (q.2 ≠ x)) = false → k.going = false → k.sigs.length = k.nmem →
      judge s k = (s.multicast k msgGo 0 0).setCoord k (some { k with going := true })))
  ∧ (∀ s k collid instNo, s.coords = [k] → k.collid = collid → k.inst = BitVec.ofNat 64 instNo → k.members ≠ [] → k.going = false →
    k.since + 2 ^ 30 ≤ s.cycle →
    ∃ t, exec (.coordinatorTimeout collid instNo) s = .next t ∧ t = s.abortAll k 0x1F 2 ∧ t.coords = [] ∧ t.mem = s.mem
      ∧ (s.concluded.contains ⟨k.die, k.part, k.collid, k.inst, k.members, k.nmem⟩ = false →
        t.concluded.contains ⟨k.die, k.part, k.collid, k.inst, k.members, k.nmem⟩ = true))
  ∧ (∀ s (t : Transfer), s.root.failedStage = 0 → t.dst = s.fabric.device → t.reserved = false → (s.window t.src).look t.seq = .fresh →
    (takeTransfer s t = none → exec (.collTransfer t) s = .next s)
    ∧ ∀ u, takeTransfer s t = some u → exec (.collTransfer t) s = .next (u.markSeen t.src t.seq none)
      ∧ u.mem = s.mem ∧ ∃ v, u.fabric.serving = s.fabric.serving ++ [v] ∧ v.what = .transfer t)
  ∧ (∀ s (a b : Transfer), let links := s.fabric.links
    (∀ p q, a ≠ b → mayCombine a b = true → links.find? (fun w => w.what = .transfer a) = some p →
      links.find? (fun w => w.what = .transfer b) = some q →
      ∃ t u, exec (.switchCombine a b) s = .next t ∧ u.first = a.first ∧ u.count = a.count + b.count ∧ u.data = combineData a b
        ∧ t.fabric.links = (links.erase p).erase q ++ [⟨p.spine, .transfer u⟩] ∧ t.mem = s.mem)
    ∧ (mayCombine a b = false → exec (.switchCombine a b) s = .next s))
  ∧ ∀ (c : Coll) (t x y : Nat), t < 8 → let w := typeWidth t
    x < 2 ^ w → y < 2 ^ w →
    combineElement c 1 t x y = (x + y) % 2 ^ w ∧ intValue t (combineElement c 2 t x y) = min (intValue t x) (intValue t y)
    ∧ intValue t (combineElement c 3 t x y) = max (intValue t x) (intValue t y)
    ∧ combineElement c 4 t x y = Nat.land x y ∧ combineElement c 5 t x y = Nat.lor x y

/-- The machine after reset, as the manual gives it: no group, launch, saved context or task is there; every queue is
disabled and empty, with no record fetched, posted or arriving; every core belongs to partition 0, no page table and no
ring is set; no translation is held, asked for or to be invalidated; no copy, collective, checkpoint, migration, lease or
request is under way; the counters of the device, of its queues, rings and monitors and the audit log stand at zero, and
the registers of R479 at their reset values. The values that the manual does not give are the model's (log entries 3, 4,
5). -/
def Obligations.ResetValues : Prop :=
  let s := State.reset
  MemoryForm s ∧ s.mem = [] ∧ s.groups = [] ∧ s.launches = [] ∧ s.saved = []
    ∧ (∀ q, let u := s.queueAt q
      u.state = .disabled ∧ u.wptr = 0 ∧ u.rptr = 0 ∧ u.fetching = false)
    ∧ s.fetched = [] ∧ s.posted = [] ∧ s.qdbase = 0 ∧ s.nextLaunch = 0
    ∧ (∀ p, let u := s.partAt p
      u.root = 0 ∧ u.fqbase = 0 ∧ u.fqwidx = 0 ∧ u.fqridx = 0 ∧ u.eqbase = 0 ∧ u.eqwidx = 0 ∧ u.eqridx = 0 ∧ u.eqovfl = 0
        ∧ u.waiting = [] ∧ u.events = [] ∧ u.tvec = 0 ∧ u.savePool = 0 ∧ u.slots = [] ∧ u.share = 0 ∧ u.pftag = 0)
    ∧ (∀ c, let u := s.coreAt c
      u.part = 0 ∧ u.pending = none ∧ u.scrub = none ∧ u.copies = [] ∧ u.bars = [] ∧ u.bucket = 0)
    ∧ (∀ c, (s.clusterAt c).table = [] ∧ (s.clusterAt c).granted = none)
    ∧ (∀ d, (s.dieAt d).congestion = 0 ∧ ∀ k, (s.monitor d k).config = 0 ∧ (s.monitor d k).count = 0 ∧ (s.monitor d k).max = 0
      ∧ (s.monitor d k).min = 0xFFFFFFFF)
    ∧ s.cached = [] ∧ s.hostRequests = [] ∧ s.invalidation = none ∧ s.invalReg = 0 ∧ s.invalDrop = false
    ∧ s.colls = [] ∧ s.coords = [] ∧ s.ckpt = none ∧ s.migrations = [] ∧ s.leases = [] ∧ s.lmaps = []
    ∧ s.fabric.requests = [] ∧ s.fabric.serving = [] ∧ s.fabric.answers = []
    ∧ s.cycle = 0 ∧ s.bandwidth = 0x18000 ∧ s.teardown.busy = false ∧ s.teardown.part = 0 ∧ s.teardown.nfr = 0 ∧ s.teardown.flist = 0
    ∧ s.root.audseq = 0 ∧ s.root.head = 0 ∧ s.root.bootm = 0 ∧ s.root.busy = false ∧ s.root.arg = 0 ∧ s.root.nonce = 0

/-- THE CANONICAL FORM IS KEPT: whatever a step does, equal memories stay equal data. -/
def Obligations.StepKeepsMemoryForm : Prop :=
  ∀ s t, MemoryForm s → step s = .next t → MemoryForm t
end

