-- ==== Sys2Proof/Laws/Access.lean ====
section
/-!
SUPPORT. What the port of a core (R322) and a read of a vector-side word (R380) can do: with the buckets off nothing waits and
nothing is spent, spending changes the core alone, and a read that no younger load has run ahead of gives what is there.
-/
namespace Sys2Proof.Machine

theorem State.hasTokens_of_off (s : State) (c n : Nat) (h : s.tokensOn = false) : s.hasTokens c n = true := by
  simp [State.hasTokens, h]

theorem State.spend_of_off (s : State) (c n : Nat) (h : s.tokensOn = false) : s.spend c n = s := by simp [State.spend, h]

/-- Tokens change the cores, and nothing else of the machine. -/
theorem State.spend_cores (s : State) (c n : Nat) : ∃ k, s.spend c n = { s with cores := k } := by
  unfold State.spend
  split
  · exact ⟨_, rfl⟩
  · exact ⟨s.cores, rfl⟩

@[simp] theorem State.spend_mem (s : State) (c n : Nat) : (s.spend c n).mem = s.mem := by
  obtain ⟨k, h⟩ := s.spend_cores c n
  rw [h]
@[simp] theorem State.spend_groups (s : State) (c n : Nat) : (s.spend c n).groups = s.groups := by
  obtain ⟨k, h⟩ := s.spend_cores c n
  rw [h]

/-- A word at its core's port goes on, or waits there. -/
theorem State.atPort_cases (s : State) (c n : Nat) (go : State → Issue) :
    (s.hasTokens c n = true ∧ s.atPort c n go = go (s.spend c n))
      ∨ (s.hasTokens c n = false ∧ s.atPort c n go = .stall (s.askPort c)) := by
  cases h : s.hasTokens c n <;> simp [State.atPort, h]

theorem State.ported_of_tokens (s : State) (c n : Nat) (go : State → Option State) (h : s.hasTokens c n = true) :
    s.ported c n go = go (s.spend c n) := by simp [State.ported, h]

/-- With no load ahead of it, a word reads what is there. -/
theorem Grp.valueRead_of_none (g : Grp) (id space place n x : Nat) (h : g.readAhead = []) : g.valueRead id space place n x = x := by
  simp [Grp.valueRead, h]

end Sys2Proof.Machine
end

