-- ==== Sys2Proof/Laws/Encode.lean ====
section
/-!
SUPPORT. Fields and words: a word of given fields has that opcode and function and those fields, and a word is the word of its
own fields (R50, R64).
-/
namespace Sys2Proof

/-- Two neighbouring fields of a word are one field of it. -/
theorem glue {m n : Nat} (w : BitVec 64) (a b : Nat) (h : a = b + n) :
    w.extractLsb' a m ++ w.extractLsb' b n = w.extractLsb' b (m + n) := by
  subst h
  exact BitVec.extractLsb'_append_extractLsb'_eq_extractLsb' rfl

theorem FS.opOf_toWord (op : BitVec 7) (fn : BitVec 5) (f : FS) : opOf (f.toWord op fn) = op.toNat := by
  unfold opOf FS.toWord
  simp (disch := omega) only [BitVec.extractLsb'_append_eq_of_le, Nat.reduceSub, BitVec.extractLsb'_eq_self]

theorem FS.fnOf_toWord (op : BitVec 7) (fn : BitVec 5) (f : FS) : fnOf (f.toWord op fn) = fn.toNat := by
  unfold fnOf FS.toWord
  simp (disch := omega) only [BitVec.extractLsb'_append_eq_of_le, BitVec.extractLsb'_append_eq_of_add_le, Nat.reduceSub,
    BitVec.extractLsb'_eq_self]

theorem FS.ofWord_toWord (op : BitVec 7) (fn : BitVec 5) (f : FS) : FS.ofWord (f.toWord op fn) = f := by
  unfold FS.ofWord FS.toWord
  simp (disch := omega) only [BitVec.extractLsb'_append_eq_of_le, BitVec.extractLsb'_append_eq_of_add_le, Nat.reduceSub,
    BitVec.extractLsb'_eq_self]

theorem FS.toWord_ofWord (w : BitVec 64) : (FS.ofWord w).toWord (w.extractLsb' 57 7) (w.extractLsb' 52 5) = w := by
  unfold FS.ofWord FS.toWord
  dsimp only
  rw [glue w 57 52 rfl, glue w 52 46 rfl, glue w 46 40 rfl, glue w 40 34 rfl, glue w 34 14 rfl, glue w 14 2 rfl, glue w 2 0 rfl]
  exact BitVec.extractLsb'_eq_self

theorem FI.opOf_toWord (op : BitVec 7) (fn : BitVec 5) (f : FI) : opOf (f.toWord op fn) = op.toNat := by
  unfold opOf FI.toWord
  simp (disch := omega) only [BitVec.extractLsb'_append_eq_of_le, Nat.reduceSub, BitVec.extractLsb'_eq_self]

theorem FI.fnOf_toWord (op : BitVec 7) (fn : BitVec 5) (f : FI) : fnOf (f.toWord op fn) = fn.toNat := by
  unfold fnOf FI.toWord
  simp (disch := omega) only [BitVec.extractLsb'_append_eq_of_le, BitVec.extractLsb'_append_eq_of_add_le, Nat.reduceSub,
    BitVec.extractLsb'_eq_self]

theorem FI.ofWord_toWord (op : BitVec 7) (fn : BitVec 5) (f : FI) : FI.ofWord (f.toWord op fn) = f := by
  unfold FI.ofWord FI.toWord
  simp (disch := omega) only [BitVec.extractLsb'_append_eq_of_le, BitVec.extractLsb'_append_eq_of_add_le, Nat.reduceSub,
    BitVec.extractLsb'_eq_self]

theorem FI.toWord_ofWord (w : BitVec 64) : (FI.ofWord w).toWord (w.extractLsb' 57 7) (w.extractLsb' 52 5) = w := by
  unfold FI.ofWord FI.toWord
  dsimp only
  rw [glue w 57 52 rfl, glue w 52 46 rfl, glue w 46 40 rfl, glue w 40 8 rfl, glue w 8 2 rfl, glue w 2 0 rfl]
  exact BitVec.extractLsb'_eq_self

theorem FB.opOf_toWord (op : BitVec 7) (fn : BitVec 5) (f : FB) : opOf (f.toWord op fn) = op.toNat := by
  unfold opOf FB.toWord
  simp (disch := omega) only [BitVec.extractLsb'_append_eq_of_le, Nat.reduceSub, BitVec.extractLsb'_eq_self]

theorem FB.fnOf_toWord (op : BitVec 7) (fn : BitVec 5) (f : FB) : fnOf (f.toWord op fn) = fn.toNat := by
  unfold fnOf FB.toWord
  simp (disch := omega) only [BitVec.extractLsb'_append_eq_of_le, BitVec.extractLsb'_append_eq_of_add_le, Nat.reduceSub,
    BitVec.extractLsb'_eq_self]

theorem FB.ofWord_toWord (op : BitVec 7) (fn : BitVec 5) (f : FB) : FB.ofWord (f.toWord op fn) = f := by
  unfold FB.ofWord FB.toWord
  simp (disch := omega) only [BitVec.extractLsb'_append_eq_of_le, BitVec.extractLsb'_append_eq_of_add_le, Nat.reduceSub,
    BitVec.extractLsb'_eq_self]

theorem FB.toWord_ofWord (w : BitVec 64) : (FB.ofWord w).toWord (w.extractLsb' 57 7) (w.extractLsb' 52 5) = w := by
  unfold FB.ofWord FB.toWord
  dsimp only
  rw [glue w 57 52 rfl, glue w 52 46 rfl, glue w 46 40 rfl, glue w 40 36 rfl, glue w 36 4 rfl, glue w 4 2 rfl, glue w 2 0 rfl]
  exact BitVec.extractLsb'_eq_self

theorem FV.opOf_toWord (op : BitVec 7) (fn : BitVec 5) (f : FV) : opOf (f.toWord op fn) = op.toNat := by
  unfold opOf FV.toWord
  simp (disch := omega) only [BitVec.extractLsb'_append_eq_of_le, Nat.reduceSub, BitVec.extractLsb'_eq_self]

theorem FV.fnOf_toWord (op : BitVec 7) (fn : BitVec 5) (f : FV) : fnOf (f.toWord op fn) = fn.toNat := by
  unfold fnOf FV.toWord
  simp (disch := omega) only [BitVec.extractLsb'_append_eq_of_le, BitVec.extractLsb'_append_eq_of_add_le, Nat.reduceSub,
    BitVec.extractLsb'_eq_self]

theorem FV.ofWord_toWord (op : BitVec 7) (fn : BitVec 5) (f : FV) : FV.ofWord (f.toWord op fn) = f := by
  unfold FV.ofWord FV.toWord
  simp (disch := omega) only [BitVec.extractLsb'_append_eq_of_le, BitVec.extractLsb'_append_eq_of_add_le, Nat.reduceSub,
    BitVec.extractLsb'_eq_self]

theorem FV.toWord_ofWord (w : BitVec 64) : (FV.ofWord w).toWord (w.extractLsb' 57 7) (w.extractLsb' 52 5) = w := by
  unfold FV.ofWord FV.toWord
  dsimp only
  rw [glue w 57 52 rfl, glue w 52 47 rfl, glue w 47 42 rfl, glue w 42 37 rfl, glue w 37 32 rfl, glue w 32 29 rfl, glue w 29 28 rfl, glue w 28 25 rfl, glue w 25 22 rfl, glue w 22 21 rfl, glue w 21 18 rfl, glue w 18 2 rfl, glue w 2 0 rfl]
  exact BitVec.extractLsb'_eq_self

theorem FVS.opOf_toWord (op : BitVec 7) (fn : BitVec 5) (f : FVS) : opOf (f.toWord op fn) = op.toNat := by
  unfold opOf FVS.toWord
  simp (disch := omega) only [BitVec.extractLsb'_append_eq_of_le, Nat.reduceSub, BitVec.extractLsb'_eq_self]

theorem FVS.fnOf_toWord (op : BitVec 7) (fn : BitVec 5) (f : FVS) : fnOf (f.toWord op fn) = fn.toNat := by
  unfold fnOf FVS.toWord
  simp (disch := omega) only [BitVec.extractLsb'_append_eq_of_le, BitVec.extractLsb'_append_eq_of_add_le, Nat.reduceSub,
    BitVec.extractLsb'_eq_self]

theorem FVS.ofWord_toWord (op : BitVec 7) (fn : BitVec 5) (f : FVS) : FVS.ofWord (f.toWord op fn) = f := by
  unfold FVS.ofWord FVS.toWord
  simp (disch := omega) only [BitVec.extractLsb'_append_eq_of_le, BitVec.extractLsb'_append_eq_of_add_le, Nat.reduceSub,
    BitVec.extractLsb'_eq_self]

theorem FVS.toWord_ofWord (w : BitVec 64) : (FVS.ofWord w).toWord (w.extractLsb' 57 7) (w.extractLsb' 52 5) = w := by
  unfold FVS.ofWord FVS.toWord
  dsimp only
  rw [glue w 57 52 rfl, glue w 52 47 rfl, glue w 47 42 rfl, glue w 42 36 rfl, glue w 36 32 rfl, glue w 32 29 rfl, glue w 29 28 rfl, glue w 28 25 rfl, glue w 25 22 rfl, glue w 22 21 rfl, glue w 21 18 rfl, glue w 18 2 rfl, glue w 2 0 rfl]
  exact BitVec.extractLsb'_eq_self

theorem FM.opOf_toWord (op : BitVec 7) (fn : BitVec 5) (f : FM) : opOf (f.toWord op fn) = op.toNat := by
  unfold opOf FM.toWord
  simp (disch := omega) only [BitVec.extractLsb'_append_eq_of_le, Nat.reduceSub, BitVec.extractLsb'_eq_self]

theorem FM.fnOf_toWord (op : BitVec 7) (fn : BitVec 5) (f : FM) : fnOf (f.toWord op fn) = fn.toNat := by
  unfold fnOf FM.toWord
  simp (disch := omega) only [BitVec.extractLsb'_append_eq_of_le, BitVec.extractLsb'_append_eq_of_add_le, Nat.reduceSub,
    BitVec.extractLsb'_eq_self]

theorem FM.ofWord_toWord (op : BitVec 7) (fn : BitVec 5) (f : FM) : FM.ofWord (f.toWord op fn) = f := by
  unfold FM.ofWord FM.toWord
  simp (disch := omega) only [BitVec.extractLsb'_append_eq_of_le, BitVec.extractLsb'_append_eq_of_add_le, Nat.reduceSub,
    BitVec.extractLsb'_eq_self]

theorem FM.toWord_ofWord (w : BitVec 64) : (FM.ofWord w).toWord (w.extractLsb' 57 7) (w.extractLsb' 52 5) = w := by
  unfold FM.ofWord FM.toWord
  dsimp only
  rw [glue w 57 52 rfl, glue w 52 47 rfl, glue w 47 41 rfl, glue w 41 35 rfl, glue w 35 30 rfl, glue w 30 27 rfl, glue w 27 25 rfl, glue w 25 22 rfl, glue w 22 20 rfl, glue w 20 19 rfl, glue w 19 18 rfl, glue w 18 15 rfl, glue w 15 2 rfl, glue w 2 0 rfl]
  exact BitVec.extractLsb'_eq_self

theorem FX.opOf_toWord (op : BitVec 7) (fn : BitVec 5) (f : FX) : opOf (f.toWord op fn) = op.toNat := by
  unfold opOf FX.toWord
  simp (disch := omega) only [BitVec.extractLsb'_append_eq_of_le, Nat.reduceSub, BitVec.extractLsb'_eq_self]

theorem FX.fnOf_toWord (op : BitVec 7) (fn : BitVec 5) (f : FX) : fnOf (f.toWord op fn) = fn.toNat := by
  unfold fnOf FX.toWord
  simp (disch := omega) only [BitVec.extractLsb'_append_eq_of_le, BitVec.extractLsb'_append_eq_of_add_le, Nat.reduceSub,
    BitVec.extractLsb'_eq_self]

theorem FX.ofWord_toWord (op : BitVec 7) (fn : BitVec 5) (f : FX) : FX.ofWord (f.toWord op fn) = f := by
  unfold FX.ofWord FX.toWord
  simp (disch := omega) only [BitVec.extractLsb'_append_eq_of_le, BitVec.extractLsb'_append_eq_of_add_le, Nat.reduceSub,
    BitVec.extractLsb'_eq_self]

theorem FX.toWord_ofWord (w : BitVec 64) : (FX.ofWord w).toWord (w.extractLsb' 57 7) (w.extractLsb' 52 5) = w := by
  unfold FX.ofWord FX.toWord
  dsimp only
  rw [glue w 57 52 rfl, glue w 52 50 rfl, glue w 50 44 rfl, glue w 44 38 rfl, glue w 38 32 rfl, glue w 32 29 rfl, glue w 29 24 rfl, glue w 24 20 rfl, glue w 20 16 rfl, glue w 16 14 rfl, glue w 14 2 rfl, glue w 2 0 rfl]
  exact BitVec.extractLsb'_eq_self

theorem FF.opOf_toWord (op : BitVec 7) (fn : BitVec 5) (f : FF) : opOf (f.toWord op fn) = op.toNat := by
  unfold opOf FF.toWord
  simp (disch := omega) only [BitVec.extractLsb'_append_eq_of_le, Nat.reduceSub, BitVec.extractLsb'_eq_self]

theorem FF.fnOf_toWord (op : BitVec 7) (fn : BitVec 5) (f : FF) : fnOf (f.toWord op fn) = fn.toNat := by
  unfold fnOf FF.toWord
  simp (disch := omega) only [BitVec.extractLsb'_append_eq_of_le, BitVec.extractLsb'_append_eq_of_add_le, Nat.reduceSub,
    BitVec.extractLsb'_eq_self]

theorem FF.ofWord_toWord (op : BitVec 7) (fn : BitVec 5) (f : FF) : FF.ofWord (f.toWord op fn) = f := by
  unfold FF.ofWord FF.toWord
  simp (disch := omega) only [BitVec.extractLsb'_append_eq_of_le, BitVec.extractLsb'_append_eq_of_add_le, Nat.reduceSub,
    BitVec.extractLsb'_eq_self]

theorem FF.toWord_ofWord (w : BitVec 64) : (FF.ofWord w).toWord (w.extractLsb' 57 7) (w.extractLsb' 52 5) = w := by
  unfold FF.ofWord FF.toWord
  dsimp only
  rw [glue w 57 52 rfl, glue w 52 40 rfl, glue w 40 34 rfl, glue w 34 28 rfl, glue w 28 22 rfl, glue w 22 17 rfl, glue w 17 13 rfl, glue w 13 12 rfl, glue w 12 2 rfl, glue w 2 0 rfl]
  exact BitVec.extractLsb'_eq_self

theorem FC.opOf_toWord (op : BitVec 7) (fn : BitVec 5) (f : FC) : opOf (f.toWord op fn) = op.toNat := by
  unfold opOf FC.toWord
  simp (disch := omega) only [BitVec.extractLsb'_append_eq_of_le, Nat.reduceSub, BitVec.extractLsb'_eq_self]

theorem FC.fnOf_toWord (op : BitVec 7) (fn : BitVec 5) (f : FC) : fnOf (f.toWord op fn) = fn.toNat := by
  unfold fnOf FC.toWord
  simp (disch := omega) only [BitVec.extractLsb'_append_eq_of_le, BitVec.extractLsb'_append_eq_of_add_le, Nat.reduceSub,
    BitVec.extractLsb'_eq_self]

theorem FC.ofWord_toWord (op : BitVec 7) (fn : BitVec 5) (f : FC) : FC.ofWord (f.toWord op fn) = f := by
  unfold FC.ofWord FC.toWord
  simp (disch := omega) only [BitVec.extractLsb'_append_eq_of_le, BitVec.extractLsb'_append_eq_of_add_le, Nat.reduceSub,
    BitVec.extractLsb'_eq_self]

theorem FC.toWord_ofWord (w : BitVec 64) : (FC.ofWord w).toWord (w.extractLsb' 57 7) (w.extractLsb' 52 5) = w := by
  unfold FC.ofWord FC.toWord
  dsimp only
  rw [glue w 57 52 rfl, glue w 52 46 rfl, glue w 46 40 rfl, glue w 40 34 rfl, glue w 34 28 rfl, glue w 28 16 rfl, glue w 16 12 rfl, glue w 12 10 rfl, glue w 10 7 rfl, glue w 7 2 rfl, glue w 2 0 rfl]
  exact BitVec.extractLsb'_eq_self

theorem FO.opOf_toWord (op : BitVec 7) (fn : BitVec 5) (f : FO) : opOf (f.toWord op fn) = op.toNat := by
  unfold opOf FO.toWord
  simp (disch := omega) only [BitVec.extractLsb'_append_eq_of_le, Nat.reduceSub, BitVec.extractLsb'_eq_self]

theorem FO.fnOf_toWord (op : BitVec 7) (fn : BitVec 5) (f : FO) : fnOf (f.toWord op fn) = fn.toNat := by
  unfold fnOf FO.toWord
  simp (disch := omega) only [BitVec.extractLsb'_append_eq_of_le, BitVec.extractLsb'_append_eq_of_add_le, Nat.reduceSub,
    BitVec.extractLsb'_eq_self]

theorem FO.ofWord_toWord (op : BitVec 7) (fn : BitVec 5) (f : FO) : FO.ofWord (f.toWord op fn) = f := by
  unfold FO.ofWord FO.toWord
  simp (disch := omega) only [BitVec.extractLsb'_append_eq_of_le, BitVec.extractLsb'_append_eq_of_add_le, Nat.reduceSub,
    BitVec.extractLsb'_eq_self]

theorem FO.toWord_ofWord (w : BitVec 64) : (FO.ofWord w).toWord (w.extractLsb' 57 7) (w.extractLsb' 52 5) = w := by
  unfold FO.ofWord FO.toWord
  dsimp only
  rw [glue w 57 52 rfl, glue w 52 2 rfl, glue w 2 0 rfl]
  exact BitVec.extractLsb'_eq_self

end Sys2Proof
end

