-- ==== Sys2Proof/Laws/Maps.lean ====
section
/-!
SUPPORT. Laws of the sparse maps and of memory: what a read gives after a write, and that every operation keeps the
canonical form.
-/
namespace Sys2Proof.Machine

variable {α : Type}

@[simp] theorem Assoc.find?_nil (k : Nat) : Assoc.find? ([] : Assoc α) k = none := rfl

@[simp] theorem Assoc.find?_put_same (m : Assoc α) (k : Nat) (v : α) : Assoc.find? (Assoc.put m k v) k = some v := by
  induction m with
  | nil => simp [Assoc.put, Assoc.find?]
  | cons p t ih =>
    obtain ⟨k', v'⟩ := p
    unfold Assoc.put
    split
    · simp [Assoc.find?]
    · split
      · simp [Assoc.find?]
      · simp_all [Assoc.find?]

@[simp] theorem Assoc.find?_put_other (m : Assoc α) {k j : Nat} (v : α) (h : j ≠ k) :
    Assoc.find? (Assoc.put m k v) j = Assoc.find? m j := by
  induction m with
  | nil => simp [Assoc.put, Assoc.find?, h]
  | cons p t ih =>
    obtain ⟨k', v'⟩ := p
    unfold Assoc.put
    split
    · next e => subst e; simp [Assoc.find?, h]
    · split
      · simp [Assoc.find?, h]
      · simp [Assoc.find?, ih]

theorem Assoc.find?_put (m : Assoc α) (k j : Nat) (v : α) :
    Assoc.find? (Assoc.put m k v) j = if j = k then some v else Assoc.find? m j := by
  split
  · next h => subst h; simp
  · next h => simp [h]

@[simp] theorem Assoc.put_put (m : Assoc α) (k : Nat) (v w : α) : Assoc.put (Assoc.put m k v) k w = Assoc.put m k w := by
  induction m with
  | nil => simp [Assoc.put]
  | cons p t ih =>
    obtain ⟨k', v'⟩ := p
    simp only [Assoc.put]
    split
    · simp [Assoc.put]
    · split
      · simp [Assoc.put]
      · simp_all [Assoc.put]

/-- A bound below the keys of a well-formed list. -/
theorem Assoc.wfFrom_weaken {b b' : Option Nat} {m : Assoc α} (h : Assoc.wfFrom b m = true)
    (hb : ∀ x, b' = some x → ∃ y, b = some y ∧ x ≤ y) : Assoc.wfFrom b' m = true := by
  cases m with
  | nil => cases b' <;> rfl
  | cons p t =>
    obtain ⟨k, v⟩ := p
    cases b' with
    | none => cases b <;> simp_all [Assoc.wfFrom]
    | some x =>
      obtain ⟨y, rfl, hxy⟩ := hb x rfl
      simp only [Assoc.wfFrom, Bool.and_eq_true, decide_eq_true_eq] at h ⊢
      exact ⟨by omega, h.2⟩

theorem Assoc.wfFrom_put (m : Assoc α) (k : Nat) (v : α) (b : Option Nat) (h : Assoc.wfFrom b m = true)
    (hb : ∀ x, b = some x → x < k) : Assoc.wfFrom b (Assoc.put m k v) = true := by
  induction m generalizing b with
  | nil => cases b <;> simp_all [Assoc.put, Assoc.wfFrom]
  | cons p t ih =>
    obtain ⟨k', v'⟩ := p
    have ht : Assoc.wfFrom (some k') t = true := by cases b <;> simp_all [Assoc.wfFrom]
    unfold Assoc.put
    split
    · next e => subst e; cases b <;> simp_all [Assoc.wfFrom]
    · split
      · cases b <;> simp_all [Assoc.wfFrom]
      · have := ih (some k') ht (by intro x hx; cases hx; omega)
        cases b <;> simp_all [Assoc.wfFrom]

theorem Assoc.wfFrom_del (m : Assoc α) (k : Nat) (b : Option Nat) (h : Assoc.wfFrom b m = true) :
    Assoc.wfFrom b (Assoc.del m k) = true := by
  induction m generalizing b with
  | nil => simpa [Assoc.del] using h
  | cons p t ih =>
    obtain ⟨k', v'⟩ := p
    have ht : Assoc.wfFrom (some k') t = true := by cases b <;> simp_all [Assoc.wfFrom]
    unfold Assoc.del
    split
    · refine Assoc.wfFrom_weaken (ih _ ht) ?_
      intro x hx
      subst hx
      simp only [Assoc.wfFrom, Bool.and_eq_true, decide_eq_true_eq] at h
      exact ⟨k', rfl, by omega⟩
    · have := ih (some k') ht
      cases b <;> simp_all [Assoc.wfFrom]

@[simp] theorem Assoc.find?_del_same (m : Assoc α) (k : Nat) : Assoc.find? (Assoc.del m k) k = none := by
  induction m with
  | nil => rfl
  | cons p t ih =>
    obtain ⟨k', v'⟩ := p
    unfold Assoc.del
    split
    · exact ih
    · next h => simp [Assoc.find?, h, ih]

@[simp] theorem Assoc.find?_del_other (m : Assoc α) {k j : Nat} (hj : j ≠ k) :
    Assoc.find? (Assoc.del m k) j = Assoc.find? m j := by
  induction m with
  | nil => rfl
  | cons p t ih =>
    obtain ⟨k', v'⟩ := p
    unfold Assoc.del
    split
    · next e => subst e; simp [Assoc.find?, hj, ih]
    · simp [Assoc.find?, ih]

theorem Assoc.mem_put {m : Assoc α} {k : Nat} {v : α} {p : Nat × α} (h : p ∈ Assoc.put m k v) : p = (k, v) ∨ p ∈ m := by
  induction m with
  | nil => simp_all [Assoc.put]
  | cons q t ih =>
    obtain ⟨k', v'⟩ := q
    unfold Assoc.put at h
    grind

theorem Assoc.mem_del {m : Assoc α} {k : Nat} {p : Nat × α} (h : p ∈ Assoc.del m k) : p ∈ m := by
  induction m with
  | nil => simp [Assoc.del] at h
  | cons q t ih =>
    obtain ⟨k', v'⟩ := q
    unfold Assoc.del at h
    grind

variable [DecidableEq α]

theorem FMap.wf_set (d : α) (m : FMap α) (k : Nat) (v : α) (h : FMap.wf d m = true) : FMap.wf d (FMap.set d m k v) = true := by
  simp only [FMap.wf, Bool.and_eq_true, List.all_eq_true, decide_eq_true_eq] at h ⊢
  unfold FMap.set
  split
  · exact ⟨Assoc.wfFrom_del m k none h.1, fun p hp => h.2 p (Assoc.mem_del hp)⟩
  · refine ⟨Assoc.wfFrom_put m k v none h.1 (by simp), fun p hp => ?_⟩
    rcases Assoc.mem_put hp with rfl | hp
    · simpa using ‹¬v = d›
    · exact h.2 p hp

@[simp] theorem FMap.get_set_same (d : α) (m : FMap α) (k : Nat) (v : α) : FMap.get d (FMap.set d m k v) k = v := by
  unfold FMap.get FMap.set
  split
  · next e => simp [e]
  · simp

@[simp] theorem FMap.get_set_other (d : α) (m : FMap α) {k j : Nat} (v : α) (hj : j ≠ k) :
    FMap.get d (FMap.set d m k v) j = FMap.get d m j := by
  unfold FMap.get FMap.set
  split <;> simp [hj]

theorem FMap.get_set (d : α) (m : FMap α) (k j : Nat) (v : α) :
    FMap.get d (FMap.set d m k v) j = if j = k then v else FMap.get d m j := by
  split
  · next h => subst h; simp
  · next h => simp [h]

theorem Memory.wf_write (m : Memory) (a : Nat) (b : Byte) (h : Memory.wf m = true) : Memory.wf (Memory.write m a b) = true :=
  FMap.wf_set _ _ _ _ h

@[simp] theorem Memory.read_write_same (m : Memory) (a : Nat) (b : Byte) : Memory.read (Memory.write m a b) a = b :=
  FMap.get_set_same _ _ _ _

@[simp] theorem Memory.read_write_other (m : Memory) {a c : Nat} (b : Byte) (hc : c ≠ a) :
    Memory.read (Memory.write m a b) c = Memory.read m c :=
  FMap.get_set_other _ _ _ hc

theorem Memory.wf_writeNat (m : Memory) (a n v : Nat) (h : Memory.wf m = true) : Memory.wf (Memory.writeNat m a n v) = true := by
  induction n generalizing m a v with
  | zero => exact h
  | succ n ih => exact ih _ _ _ (Memory.wf_write _ _ _ h)

theorem Memory.wf_writeBytes (m : Memory) (a : Nat) (l : List Byte) (h : Memory.wf m = true) :
    Memory.wf (Memory.writeBytes m a l) = true := by
  induction l generalizing m a with
  | nil => exact h
  | cons b t ih => exact ih _ _ (Memory.wf_write _ _ _ h)

theorem Memory.read_writeNat_outside (m : Memory) (a n v c : Nat) (hc : c < a ∨ a + n ≤ c) :
    Memory.read (Memory.writeNat m a n v) c = Memory.read m c := by
  induction n generalizing m a v with
  | zero => rfl
  | succ n ih => rw [Memory.writeNat, ih _ _ _ (by omega), Memory.read_write_other _ _ (by omega)]

theorem Memory.read_writeNat_inside (m : Memory) (a n v k : Nat) (hk : k < n) :
    Memory.read (Memory.writeNat m a n v) (a + k) = BitVec.ofNat 8 (v / 256 ^ k) := by
  induction n generalizing m a v k with
  | zero => omega
  | succ n ih =>
    rw [Memory.writeNat]
    cases k with
    | zero =>
      rw [Memory.read_writeNat_outside _ _ _ _ _ (by omega)]
      simp
    | succ k =>
      have := ih (Memory.write m a (BitVec.ofNat 8 v)) (a + 1) (v / 256) k (by omega)
      rw [show a + (k + 1) = a + 1 + k by omega, this, Nat.div_div_eq_div_mul, Nat.pow_succ, Nat.mul_comm]

/-- A number is read back from the bytes it was written to. -/
theorem Memory.readNat_writeNat (m : Memory) (a n v : Nat) :
    Memory.readNat (Memory.writeNat m a n v) a n = v % 256 ^ n := by
  induction n generalizing m a v with
  | zero => simp [Memory.readNat, Nat.mod_one]
  | succ n ih =>
    rw [Memory.readNat, Memory.writeNat, ih, Memory.read_writeNat_outside _ _ _ _ _ (by omega),
      Memory.read_write_same, BitVec.toNat_ofNat]
    exact (Nat.pow_succ' (m := 256) ▸ Nat.mod_mul.symm)

theorem Memory.readNat_lt (m : Memory) (a n : Nat) : Memory.readNat m a n < 256 ^ n := by
  induction n generalizing a with
  | zero => simp [Memory.readNat]
  | succ n ih =>
    have h1 := ih (a + 1)
    have h2 := (Memory.read m a).isLt
    rw [Memory.readNat, Nat.pow_succ']
    omega

end Sys2Proof.Machine
end

