-- ==== Sys2Proof/Laws/State.lean ====
section
/-!
SUPPORT. One lemma per field per update of State, so that no proof unfolds a record update; what the accessors give after
an update; memory keeps its canonical form.
-/
namespace Sys2Proof.Machine

variable (s : State)


@[simp] theorem State.setGrp_sched (t : Nat) (g : Grp) : (s.setGrp t g).sched = s.sched := rfl
@[simp] theorem State.setGrp_cycle (t : Nat) (g : Grp) : (s.setGrp t g).cycle = s.cycle := rfl
@[simp] theorem State.setGrp_draws (t : Nat) (g : Grp) : (s.setGrp t g).draws = s.draws := rfl
@[simp] theorem State.setGrp_mem (t : Nat) (g : Grp) : (s.setGrp t g).mem = s.mem := rfl
@[simp] theorem State.setGrp_spad (t : Nat) (g : Grp) : (s.setGrp t g).spad = s.spad := rfl
@[simp] theorem State.setGrp_cores (t : Nat) (g : Grp) : (s.setGrp t g).cores = s.cores := rfl
@[simp] theorem State.setGrp_clusters (t : Nat) (g : Grp) : (s.setGrp t g).clusters = s.clusters := rfl
@[simp] theorem State.setGrp_dies (t : Nat) (g : Grp) : (s.setGrp t g).dies = s.dies := rfl
@[simp] theorem State.setGrp_parts (t : Nat) (g : Grp) : (s.setGrp t g).parts = s.parts := rfl
@[simp] theorem State.setGrp_queues (t : Nat) (g : Grp) : (s.setGrp t g).queues = s.queues := rfl
@[simp] theorem State.setGrp_fetched (t : Nat) (g : Grp) : (s.setGrp t g).fetched = s.fetched := rfl
@[simp] theorem State.setGrp_posted (t : Nat) (g : Grp) : (s.setGrp t g).posted = s.posted := rfl
@[simp] theorem State.setGrp_launches (t : Nat) (g : Grp) : (s.setGrp t g).launches = s.launches := rfl
@[simp] theorem State.setGrp_nextLaunch (t : Nat) (g : Grp) : (s.setGrp t g).nextLaunch = s.nextLaunch := rfl
@[simp] theorem State.setGrp_saved (t : Nat) (g : Grp) : (s.setGrp t g).saved = s.saved := rfl
@[simp] theorem State.setGrp_nextToken (t : Nat) (g : Grp) : (s.setGrp t g).nextToken = s.nextToken := rfl
@[simp] theorem State.setGrp_qdbase (t : Nat) (g : Grp) : (s.setGrp t g).qdbase = s.qdbase := rfl
@[simp] theorem State.setGrp_cached (t : Nat) (g : Grp) : (s.setGrp t g).cached = s.cached := rfl
@[simp] theorem State.setGrp_walkPast (t : Nat) (g : Grp) : (s.setGrp t g).walkPast = s.walkPast := rfl
@[simp] theorem State.setGrp_hostRequests (t : Nat) (g : Grp) : (s.setGrp t g).hostRequests = s.hostRequests := rfl
@[simp] theorem State.setGrp_invalidation (t : Nat) (g : Grp) : (s.setGrp t g).invalidation = s.invalidation := rfl
@[simp] theorem State.setGrp_invalReg (t : Nat) (g : Grp) : (s.setGrp t g).invalReg = s.invalReg := rfl
@[simp] theorem State.setGrp_invalDrop (t : Nat) (g : Grp) : (s.setGrp t g).invalDrop = s.invalDrop := rfl
@[simp] theorem State.setGrp_migrations (t : Nat) (g : Grp) : (s.setGrp t g).migrations = s.migrations := rfl
@[simp] theorem State.setGrp_msixUnmasked (t : Nat) (g : Grp) : (s.setGrp t g).msixUnmasked = s.msixUnmasked := rfl
@[simp] theorem State.setGrp_msixPending (t : Nat) (g : Grp) : (s.setGrp t g).msixPending = s.msixPending := rfl
@[simp] theorem State.setGrp_msixSent (t : Nat) (g : Grp) : (s.setGrp t g).msixSent = s.msixSent := rfl
@[simp] theorem State.setGrp_bandwidth (t : Nat) (g : Grp) : (s.setGrp t g).bandwidth = s.bandwidth := rfl
@[simp] theorem State.setGrp_leases (t : Nat) (g : Grp) : (s.setGrp t g).leases = s.leases := rfl
@[simp] theorem State.setGrp_lmaps (t : Nat) (g : Grp) : (s.setGrp t g).lmaps = s.lmaps := rfl
@[simp] theorem State.setGrp_fabric (t : Nat) (g : Grp) : (s.setGrp t g).fabric = s.fabric := rfl
@[simp] theorem State.setGrp_windows (t : Nat) (g : Grp) : (s.setGrp t g).windows = s.windows := rfl
@[simp] theorem State.setGrp_ckpt (t : Nat) (g : Grp) : (s.setGrp t g).ckpt = s.ckpt := rfl
@[simp] theorem State.setGrp_colls (t : Nat) (g : Grp) : (s.setGrp t g).colls = s.colls := rfl
@[simp] theorem State.setGrp_coords (t : Nat) (g : Grp) : (s.setGrp t g).coords = s.coords := rfl
@[simp] theorem State.setGrp_concluded (t : Nat) (g : Grp) : (s.setGrp t g).concluded = s.concluded := rfl
@[simp] theorem State.setGrp_postedColls (t : Nat) (g : Grp) : (s.setGrp t g).postedColls = s.postedColls := rfl
@[simp] theorem State.setGrp_teardown (t : Nat) (g : Grp) : (s.setGrp t g).teardown = s.teardown := rfl
@[simp] theorem State.setGrp_root (t : Nat) (g : Grp) : (s.setGrp t g).root = s.root := rfl
@[simp] theorem State.setGrp_dieMask (t : Nat) (g : Grp) : (s.setGrp t g).dieMask = s.dieMask := rfl
@[simp] theorem State.setGrp_hostLink (t : Nat) (g : Grp) : (s.setGrp t g).hostLink = s.hostLink := rfl
@[simp] theorem State.setGrp_coreAt (t : Nat) (g : Grp) (j : Nat) : (s.setGrp t g).coreAt j = s.coreAt j := rfl
@[simp] theorem State.setGrp_clusterAt (t : Nat) (g : Grp) (j : Nat) : (s.setGrp t g).clusterAt j = s.clusterAt j := rfl
@[simp] theorem State.setGrp_dieAt (t : Nat) (g : Grp) (j : Nat) : (s.setGrp t g).dieAt j = s.dieAt j := rfl
@[simp] theorem State.setGrp_partAt (t : Nat) (g : Grp) (j : Nat) : (s.setGrp t g).partAt j = s.partAt j := rfl
@[simp] theorem State.setGrp_queueAt (t : Nat) (g : Grp) (j : Nat) : (s.setGrp t g).queueAt j = s.queueAt j := rfl
@[simp] theorem State.setGrp_launchAt (t : Nat) (g : Grp) (j : Nat) : (s.setGrp t g).launchAt j = s.launchAt j := rfl

@[simp] theorem State.delGrp_sched (t : Nat) : (s.delGrp t).sched = s.sched := rfl
@[simp] theorem State.delGrp_cycle (t : Nat) : (s.delGrp t).cycle = s.cycle := rfl
@[simp] theorem State.delGrp_draws (t : Nat) : (s.delGrp t).draws = s.draws := rfl
@[simp] theorem State.delGrp_mem (t : Nat) : (s.delGrp t).mem = s.mem := rfl
@[simp] theorem State.delGrp_spad (t : Nat) : (s.delGrp t).spad = s.spad := rfl
@[simp] theorem State.delGrp_cores (t : Nat) : (s.delGrp t).cores = s.cores := rfl
@[simp] theorem State.delGrp_clusters (t : Nat) : (s.delGrp t).clusters = s.clusters := rfl
@[simp] theorem State.delGrp_dies (t : Nat) : (s.delGrp t).dies = s.dies := rfl
@[simp] theorem State.delGrp_parts (t : Nat) : (s.delGrp t).parts = s.parts := rfl
@[simp] theorem State.delGrp_queues (t : Nat) : (s.delGrp t).queues = s.queues := rfl
@[simp] theorem State.delGrp_fetched (t : Nat) : (s.delGrp t).fetched = s.fetched := rfl
@[simp] theorem State.delGrp_posted (t : Nat) : (s.delGrp t).posted = s.posted := rfl
@[simp] theorem State.delGrp_launches (t : Nat) : (s.delGrp t).launches = s.launches := rfl
@[simp] theorem State.delGrp_nextLaunch (t : Nat) : (s.delGrp t).nextLaunch = s.nextLaunch := rfl
@[simp] theorem State.delGrp_saved (t : Nat) : (s.delGrp t).saved = s.saved := rfl
@[simp] theorem State.delGrp_nextToken (t : Nat) : (s.delGrp t).nextToken = s.nextToken := rfl
@[simp] theorem State.delGrp_qdbase (t : Nat) : (s.delGrp t).qdbase = s.qdbase := rfl
@[simp] theorem State.delGrp_cached (t : Nat) : (s.delGrp t).cached = s.cached := rfl
@[simp] theorem State.delGrp_walkPast (t : Nat) : (s.delGrp t).walkPast = s.walkPast := rfl
@[simp] theorem State.delGrp_hostRequests (t : Nat) : (s.delGrp t).hostRequests = s.hostRequests := rfl
@[simp] theorem State.delGrp_invalidation (t : Nat) : (s.delGrp t).invalidation = s.invalidation := rfl
@[simp] theorem State.delGrp_invalReg (t : Nat) : (s.delGrp t).invalReg = s.invalReg := rfl
@[simp] theorem State.delGrp_invalDrop (t : Nat) : (s.delGrp t).invalDrop = s.invalDrop := rfl
@[simp] theorem State.delGrp_migrations (t : Nat) : (s.delGrp t).migrations = s.migrations := rfl
@[simp] theorem State.delGrp_msixUnmasked (t : Nat) : (s.delGrp t).msixUnmasked = s.msixUnmasked := rfl
@[simp] theorem State.delGrp_msixPending (t : Nat) : (s.delGrp t).msixPending = s.msixPending := rfl
@[simp] theorem State.delGrp_msixSent (t : Nat) : (s.delGrp t).msixSent = s.msixSent := rfl
@[simp] theorem State.delGrp_bandwidth (t : Nat) : (s.delGrp t).bandwidth = s.bandwidth := rfl
@[simp] theorem State.delGrp_leases (t : Nat) : (s.delGrp t).leases = s.leases := rfl
@[simp] theorem State.delGrp_lmaps (t : Nat) : (s.delGrp t).lmaps = s.lmaps := rfl
@[simp] theorem State.delGrp_fabric (t : Nat) : (s.delGrp t).fabric = s.fabric := rfl
@[simp] theorem State.delGrp_windows (t : Nat) : (s.delGrp t).windows = s.windows := rfl
@[simp] theorem State.delGrp_ckpt (t : Nat) : (s.delGrp t).ckpt = s.ckpt := rfl
@[simp] theorem State.delGrp_colls (t : Nat) : (s.delGrp t).colls = s.colls := rfl
@[simp] theorem State.delGrp_coords (t : Nat) : (s.delGrp t).coords = s.coords := rfl
@[simp] theorem State.delGrp_concluded (t : Nat) : (s.delGrp t).concluded = s.concluded := rfl
@[simp] theorem State.delGrp_postedColls (t : Nat) : (s.delGrp t).postedColls = s.postedColls := rfl
@[simp] theorem State.delGrp_teardown (t : Nat) : (s.delGrp t).teardown = s.teardown := rfl
@[simp] theorem State.delGrp_root (t : Nat) : (s.delGrp t).root = s.root := rfl
@[simp] theorem State.delGrp_dieMask (t : Nat) : (s.delGrp t).dieMask = s.dieMask := rfl
@[simp] theorem State.delGrp_hostLink (t : Nat) : (s.delGrp t).hostLink = s.hostLink := rfl
@[simp] theorem State.delGrp_coreAt (t : Nat) (j : Nat) : (s.delGrp t).coreAt j = s.coreAt j := rfl
@[simp] theorem State.delGrp_clusterAt (t : Nat) (j : Nat) : (s.delGrp t).clusterAt j = s.clusterAt j := rfl
@[simp] theorem State.delGrp_dieAt (t : Nat) (j : Nat) : (s.delGrp t).dieAt j = s.dieAt j := rfl
@[simp] theorem State.delGrp_partAt (t : Nat) (j : Nat) : (s.delGrp t).partAt j = s.partAt j := rfl
@[simp] theorem State.delGrp_queueAt (t : Nat) (j : Nat) : (s.delGrp t).queueAt j = s.queueAt j := rfl
@[simp] theorem State.delGrp_launchAt (t : Nat) (j : Nat) : (s.delGrp t).launchAt j = s.launchAt j := rfl

@[simp] theorem State.setCore_sched (c : Nat) (u : CoreUnit) : (s.setCore c u).sched = s.sched := rfl
@[simp] theorem State.setCore_cycle (c : Nat) (u : CoreUnit) : (s.setCore c u).cycle = s.cycle := rfl
@[simp] theorem State.setCore_draws (c : Nat) (u : CoreUnit) : (s.setCore c u).draws = s.draws := rfl
@[simp] theorem State.setCore_mem (c : Nat) (u : CoreUnit) : (s.setCore c u).mem = s.mem := rfl
@[simp] theorem State.setCore_spad (c : Nat) (u : CoreUnit) : (s.setCore c u).spad = s.spad := rfl
@[simp] theorem State.setCore_groups (c : Nat) (u : CoreUnit) : (s.setCore c u).groups = s.groups := rfl
@[simp] theorem State.setCore_clusters (c : Nat) (u : CoreUnit) : (s.setCore c u).clusters = s.clusters := rfl
@[simp] theorem State.setCore_dies (c : Nat) (u : CoreUnit) : (s.setCore c u).dies = s.dies := rfl
@[simp] theorem State.setCore_parts (c : Nat) (u : CoreUnit) : (s.setCore c u).parts = s.parts := rfl
@[simp] theorem State.setCore_queues (c : Nat) (u : CoreUnit) : (s.setCore c u).queues = s.queues := rfl
@[simp] theorem State.setCore_fetched (c : Nat) (u : CoreUnit) : (s.setCore c u).fetched = s.fetched := rfl
@[simp] theorem State.setCore_posted (c : Nat) (u : CoreUnit) : (s.setCore c u).posted = s.posted := rfl
@[simp] theorem State.setCore_launches (c : Nat) (u : CoreUnit) : (s.setCore c u).launches = s.launches := rfl
@[simp] theorem State.setCore_nextLaunch (c : Nat) (u : CoreUnit) : (s.setCore c u).nextLaunch = s.nextLaunch := rfl
@[simp] theorem State.setCore_saved (c : Nat) (u : CoreUnit) : (s.setCore c u).saved = s.saved := rfl
@[simp] theorem State.setCore_nextToken (c : Nat) (u : CoreUnit) : (s.setCore c u).nextToken = s.nextToken := rfl
@[simp] theorem State.setCore_qdbase (c : Nat) (u : CoreUnit) : (s.setCore c u).qdbase = s.qdbase := rfl
@[simp] theorem State.setCore_cached (c : Nat) (u : CoreUnit) : (s.setCore c u).cached = s.cached := rfl
@[simp] theorem State.setCore_walkPast (c : Nat) (u : CoreUnit) : (s.setCore c u).walkPast = s.walkPast := rfl
@[simp] theorem State.setCore_hostRequests (c : Nat) (u : CoreUnit) : (s.setCore c u).hostRequests = s.hostRequests := rfl
@[simp] theorem State.setCore_invalidation (c : Nat) (u : CoreUnit) : (s.setCore c u).invalidation = s.invalidation := rfl
@[simp] theorem State.setCore_invalReg (c : Nat) (u : CoreUnit) : (s.setCore c u).invalReg = s.invalReg := rfl
@[simp] theorem State.setCore_invalDrop (c : Nat) (u : CoreUnit) : (s.setCore c u).invalDrop = s.invalDrop := rfl
@[simp] theorem State.setCore_migrations (c : Nat) (u : CoreUnit) : (s.setCore c u).migrations = s.migrations := rfl
@[simp] theorem State.setCore_msixUnmasked (c : Nat) (u : CoreUnit) : (s.setCore c u).msixUnmasked = s.msixUnmasked := rfl
@[simp] theorem State.setCore_msixPending (c : Nat) (u : CoreUnit) : (s.setCore c u).msixPending = s.msixPending := rfl
@[simp] theorem State.setCore_msixSent (c : Nat) (u : CoreUnit) : (s.setCore c u).msixSent = s.msixSent := rfl
@[simp] theorem State.setCore_bandwidth (c : Nat) (u : CoreUnit) : (s.setCore c u).bandwidth = s.bandwidth := rfl
@[simp] theorem State.setCore_leases (c : Nat) (u : CoreUnit) : (s.setCore c u).leases = s.leases := rfl
@[simp] theorem State.setCore_lmaps (c : Nat) (u : CoreUnit) : (s.setCore c u).lmaps = s.lmaps := rfl
@[simp] theorem State.setCore_fabric (c : Nat) (u : CoreUnit) : (s.setCore c u).fabric = s.fabric := rfl
@[simp] theorem State.setCore_windows (c : Nat) (u : CoreUnit) : (s.setCore c u).windows = s.windows := rfl
@[simp] theorem State.setCore_ckpt (c : Nat) (u : CoreUnit) : (s.setCore c u).ckpt = s.ckpt := rfl
@[simp] theorem State.setCore_colls (c : Nat) (u : CoreUnit) : (s.setCore c u).colls = s.colls := rfl
@[simp] theorem State.setCore_coords (c : Nat) (u : CoreUnit) : (s.setCore c u).coords = s.coords := rfl
@[simp] theorem State.setCore_concluded (c : Nat) (u : CoreUnit) : (s.setCore c u).concluded = s.concluded := rfl
@[simp] theorem State.setCore_postedColls (c : Nat) (u : CoreUnit) : (s.setCore c u).postedColls = s.postedColls := rfl
@[simp] theorem State.setCore_teardown (c : Nat) (u : CoreUnit) : (s.setCore c u).teardown = s.teardown := rfl
@[simp] theorem State.setCore_root (c : Nat) (u : CoreUnit) : (s.setCore c u).root = s.root := rfl
@[simp] theorem State.setCore_dieMask (c : Nat) (u : CoreUnit) : (s.setCore c u).dieMask = s.dieMask := rfl
@[simp] theorem State.setCore_hostLink (c : Nat) (u : CoreUnit) : (s.setCore c u).hostLink = s.hostLink := rfl
@[simp] theorem State.setCore_grp (c : Nat) (u : CoreUnit) (j : Nat) : (s.setCore c u).grp j = s.grp j := rfl
@[simp] theorem State.setCore_clusterAt (c : Nat) (u : CoreUnit) (j : Nat) : (s.setCore c u).clusterAt j = s.clusterAt j := rfl
@[simp] theorem State.setCore_dieAt (c : Nat) (u : CoreUnit) (j : Nat) : (s.setCore c u).dieAt j = s.dieAt j := rfl
@[simp] theorem State.setCore_partAt (c : Nat) (u : CoreUnit) (j : Nat) : (s.setCore c u).partAt j = s.partAt j := rfl
@[simp] theorem State.setCore_queueAt (c : Nat) (u : CoreUnit) (j : Nat) : (s.setCore c u).queueAt j = s.queueAt j := rfl
@[simp] theorem State.setCore_launchAt (c : Nat) (u : CoreUnit) (j : Nat) : (s.setCore c u).launchAt j = s.launchAt j := rfl

@[simp] theorem State.setCluster_sched (c : Nat) (u : ClusterUnit) : (s.setCluster c u).sched = s.sched := rfl
@[simp] theorem State.setCluster_cycle (c : Nat) (u : ClusterUnit) : (s.setCluster c u).cycle = s.cycle := rfl
@[simp] theorem State.setCluster_draws (c : Nat) (u : ClusterUnit) : (s.setCluster c u).draws = s.draws := rfl
@[simp] theorem State.setCluster_mem (c : Nat) (u : ClusterUnit) : (s.setCluster c u).mem = s.mem := rfl
@[simp] theorem State.setCluster_spad (c : Nat) (u : ClusterUnit) : (s.setCluster c u).spad = s.spad := rfl
@[simp] theorem State.setCluster_groups (c : Nat) (u : ClusterUnit) : (s.setCluster c u).groups = s.groups := rfl
@[simp] theorem State.setCluster_cores (c : Nat) (u : ClusterUnit) : (s.setCluster c u).cores = s.cores := rfl
@[simp] theorem State.setCluster_dies (c : Nat) (u : ClusterUnit) : (s.setCluster c u).dies = s.dies := rfl
@[simp] theorem State.setCluster_parts (c : Nat) (u : ClusterUnit) : (s.setCluster c u).parts = s.parts := rfl
@[simp] theorem State.setCluster_queues (c : Nat) (u : ClusterUnit) : (s.setCluster c u).queues = s.queues := rfl
@[simp] theorem State.setCluster_fetched (c : Nat) (u : ClusterUnit) : (s.setCluster c u).fetched = s.fetched := rfl
@[simp] theorem State.setCluster_posted (c : Nat) (u : ClusterUnit) : (s.setCluster c u).posted = s.posted := rfl
@[simp] theorem State.setCluster_launches (c : Nat) (u : ClusterUnit) : (s.setCluster c u).launches = s.launches := rfl
@[simp] theorem State.setCluster_nextLaunch (c : Nat) (u : ClusterUnit) : (s.setCluster c u).nextLaunch = s.nextLaunch := rfl
@[simp] theorem State.setCluster_saved (c : Nat) (u : ClusterUnit) : (s.setCluster c u).saved = s.saved := rfl
@[simp] theorem State.setCluster_nextToken (c : Nat) (u : ClusterUnit) : (s.setCluster c u).nextToken = s.nextToken := rfl
@[simp] theorem State.setCluster_qdbase (c : Nat) (u : ClusterUnit) : (s.setCluster c u).qdbase = s.qdbase := rfl
@[simp] theorem State.setCluster_cached (c : Nat) (u : ClusterUnit) : (s.setCluster c u).cached = s.cached := rfl
@[simp] theorem State.setCluster_walkPast (c : Nat) (u : ClusterUnit) : (s.setCluster c u).walkPast = s.walkPast := rfl
@[simp] theorem State.setCluster_hostRequests (c : Nat) (u : ClusterUnit) : (s.setCluster c u).hostRequests = s.hostRequests := rfl
@[simp] theorem State.setCluster_invalidation (c : Nat) (u : ClusterUnit) : (s.setCluster c u).invalidation = s.invalidation := rfl
@[simp] theorem State.setCluster_invalReg (c : Nat) (u : ClusterUnit) : (s.setCluster c u).invalReg = s.invalReg := rfl
@[simp] theorem State.setCluster_invalDrop (c : Nat) (u : ClusterUnit) : (s.setCluster c u).invalDrop = s.invalDrop := rfl
@[simp] theorem State.setCluster_migrations (c : Nat) (u : ClusterUnit) : (s.setCluster c u).migrations = s.migrations := rfl
@[simp] theorem State.setCluster_msixUnmasked (c : Nat) (u : ClusterUnit) : (s.setCluster c u).msixUnmasked = s.msixUnmasked := rfl
@[simp] theorem State.setCluster_msixPending (c : Nat) (u : ClusterUnit) : (s.setCluster c u).msixPending = s.msixPending := rfl
@[simp] theorem State.setCluster_msixSent (c : Nat) (u : ClusterUnit) : (s.setCluster c u).msixSent = s.msixSent := rfl
@[simp] theorem State.setCluster_bandwidth (c : Nat) (u : ClusterUnit) : (s.setCluster c u).bandwidth = s.bandwidth := rfl
@[simp] theorem State.setCluster_leases (c : Nat) (u : ClusterUnit) : (s.setCluster c u).leases = s.leases := rfl
@[simp] theorem State.setCluster_lmaps (c : Nat) (u : ClusterUnit) : (s.setCluster c u).lmaps = s.lmaps := rfl
@[simp] theorem State.setCluster_fabric (c : Nat) (u : ClusterUnit) : (s.setCluster c u).fabric = s.fabric := rfl
@[simp] theorem State.setCluster_windows (c : Nat) (u : ClusterUnit) : (s.setCluster c u).windows = s.windows := rfl
@[simp] theorem State.setCluster_ckpt (c : Nat) (u : ClusterUnit) : (s.setCluster c u).ckpt = s.ckpt := rfl
@[simp] theorem State.setCluster_colls (c : Nat) (u : ClusterUnit) : (s.setCluster c u).colls = s.colls := rfl
@[simp] theorem State.setCluster_coords (c : Nat) (u : ClusterUnit) : (s.setCluster c u).coords = s.coords := rfl
@[simp] theorem State.setCluster_concluded (c : Nat) (u : ClusterUnit) : (s.setCluster c u).concluded = s.concluded := rfl
@[simp] theorem State.setCluster_postedColls (c : Nat) (u : ClusterUnit) : (s.setCluster c u).postedColls = s.postedColls := rfl
@[simp] theorem State.setCluster_teardown (c : Nat) (u : ClusterUnit) : (s.setCluster c u).teardown = s.teardown := rfl
@[simp] theorem State.setCluster_root (c : Nat) (u : ClusterUnit) : (s.setCluster c u).root = s.root := rfl
@[simp] theorem State.setCluster_dieMask (c : Nat) (u : ClusterUnit) : (s.setCluster c u).dieMask = s.dieMask := rfl
@[simp] theorem State.setCluster_hostLink (c : Nat) (u : ClusterUnit) : (s.setCluster c u).hostLink = s.hostLink := rfl
@[simp] theorem State.setCluster_grp (c : Nat) (u : ClusterUnit) (j : Nat) : (s.setCluster c u).grp j = s.grp j := rfl
@[simp] theorem State.setCluster_coreAt (c : Nat) (u : ClusterUnit) (j : Nat) : (s.setCluster c u).coreAt j = s.coreAt j := rfl
@[simp] theorem State.setCluster_dieAt (c : Nat) (u : ClusterUnit) (j : Nat) : (s.setCluster c u).dieAt j = s.dieAt j := rfl
@[simp] theorem State.setCluster_partAt (c : Nat) (u : ClusterUnit) (j : Nat) : (s.setCluster c u).partAt j = s.partAt j := rfl
@[simp] theorem State.setCluster_queueAt (c : Nat) (u : ClusterUnit) (j : Nat) : (s.setCluster c u).queueAt j = s.queueAt j := rfl
@[simp] theorem State.setCluster_launchAt (c : Nat) (u : ClusterUnit) (j : Nat) : (s.setCluster c u).launchAt j = s.launchAt j := rfl

@[simp] theorem State.setDie_sched (d : Nat) (u : DieUnit) : (s.setDie d u).sched = s.sched := rfl
@[simp] theorem State.setDie_cycle (d : Nat) (u : DieUnit) : (s.setDie d u).cycle = s.cycle := rfl
@[simp] theorem State.setDie_draws (d : Nat) (u : DieUnit) : (s.setDie d u).draws = s.draws := rfl
@[simp] theorem State.setDie_mem (d : Nat) (u : DieUnit) : (s.setDie d u).mem = s.mem := rfl
@[simp] theorem State.setDie_spad (d : Nat) (u : DieUnit) : (s.setDie d u).spad = s.spad := rfl
@[simp] theorem State.setDie_groups (d : Nat) (u : DieUnit) : (s.setDie d u).groups = s.groups := rfl
@[simp] theorem State.setDie_cores (d : Nat) (u : DieUnit) : (s.setDie d u).cores = s.cores := rfl
@[simp] theorem State.setDie_clusters (d : Nat) (u : DieUnit) : (s.setDie d u).clusters = s.clusters := rfl
@[simp] theorem State.setDie_parts (d : Nat) (u : DieUnit) : (s.setDie d u).parts = s.parts := rfl
@[simp] theorem State.setDie_queues (d : Nat) (u : DieUnit) : (s.setDie d u).queues = s.queues := rfl
@[simp] theorem State.setDie_fetched (d : Nat) (u : DieUnit) : (s.setDie d u).fetched = s.fetched := rfl
@[simp] theorem State.setDie_posted (d : Nat) (u : DieUnit) : (s.setDie d u).posted = s.posted := rfl
@[simp] theorem State.setDie_launches (d : Nat) (u : DieUnit) : (s.setDie d u).launches = s.launches := rfl
@[simp] theorem State.setDie_nextLaunch (d : Nat) (u : DieUnit) : (s.setDie d u).nextLaunch = s.nextLaunch := rfl
@[simp] theorem State.setDie_saved (d : Nat) (u : DieUnit) : (s.setDie d u).saved = s.saved := rfl
@[simp] theorem State.setDie_nextToken (d : Nat) (u : DieUnit) : (s.setDie d u).nextToken = s.nextToken := rfl
@[simp] theorem State.setDie_qdbase (d : Nat) (u : DieUnit) : (s.setDie d u).qdbase = s.qdbase := rfl
@[simp] theorem State.setDie_cached (d : Nat) (u : DieUnit) : (s.setDie d u).cached = s.cached := rfl
@[simp] theorem State.setDie_walkPast (d : Nat) (u : DieUnit) : (s.setDie d u).walkPast = s.walkPast := rfl
@[simp] theorem State.setDie_hostRequests (d : Nat) (u : DieUnit) : (s.setDie d u).hostRequests = s.hostRequests := rfl
@[simp] theorem State.setDie_invalidation (d : Nat) (u : DieUnit) : (s.setDie d u).invalidation = s.invalidation := rfl
@[simp] theorem State.setDie_invalReg (d : Nat) (u : DieUnit) : (s.setDie d u).invalReg = s.invalReg := rfl
@[simp] theorem State.setDie_invalDrop (d : Nat) (u : DieUnit) : (s.setDie d u).invalDrop = s.invalDrop := rfl
@[simp] theorem State.setDie_migrations (d : Nat) (u : DieUnit) : (s.setDie d u).migrations = s.migrations := rfl
@[simp] theorem State.setDie_msixUnmasked (d : Nat) (u : DieUnit) : (s.setDie d u).msixUnmasked = s.msixUnmasked := rfl
@[simp] theorem State.setDie_msixPending (d : Nat) (u : DieUnit) : (s.setDie d u).msixPending = s.msixPending := rfl
@[simp] theorem State.setDie_msixSent (d : Nat) (u : DieUnit) : (s.setDie d u).msixSent = s.msixSent := rfl
@[simp] theorem State.setDie_bandwidth (d : Nat) (u : DieUnit) : (s.setDie d u).bandwidth = s.bandwidth := rfl
@[simp] theorem State.setDie_leases (d : Nat) (u : DieUnit) : (s.setDie d u).leases = s.leases := rfl
@[simp] theorem State.setDie_lmaps (d : Nat) (u : DieUnit) : (s.setDie d u).lmaps = s.lmaps := rfl
@[simp] theorem State.setDie_fabric (d : Nat) (u : DieUnit) : (s.setDie d u).fabric = s.fabric := rfl
@[simp] theorem State.setDie_windows (d : Nat) (u : DieUnit) : (s.setDie d u).windows = s.windows := rfl
@[simp] theorem State.setDie_ckpt (d : Nat) (u : DieUnit) : (s.setDie d u).ckpt = s.ckpt := rfl
@[simp] theorem State.setDie_colls (d : Nat) (u : DieUnit) : (s.setDie d u).colls = s.colls := rfl
@[simp] theorem State.setDie_coords (d : Nat) (u : DieUnit) : (s.setDie d u).coords = s.coords := rfl
@[simp] theorem State.setDie_concluded (d : Nat) (u : DieUnit) : (s.setDie d u).concluded = s.concluded := rfl
@[simp] theorem State.setDie_postedColls (d : Nat) (u : DieUnit) : (s.setDie d u).postedColls = s.postedColls := rfl
@[simp] theorem State.setDie_teardown (d : Nat) (u : DieUnit) : (s.setDie d u).teardown = s.teardown := rfl
@[simp] theorem State.setDie_root (d : Nat) (u : DieUnit) : (s.setDie d u).root = s.root := rfl
@[simp] theorem State.setDie_dieMask (d : Nat) (u : DieUnit) : (s.setDie d u).dieMask = s.dieMask := rfl
@[simp] theorem State.setDie_hostLink (d : Nat) (u : DieUnit) : (s.setDie d u).hostLink = s.hostLink := rfl
@[simp] theorem State.setDie_grp (d : Nat) (u : DieUnit) (j : Nat) : (s.setDie d u).grp j = s.grp j := rfl
@[simp] theorem State.setDie_coreAt (d : Nat) (u : DieUnit) (j : Nat) : (s.setDie d u).coreAt j = s.coreAt j := rfl
@[simp] theorem State.setDie_clusterAt (d : Nat) (u : DieUnit) (j : Nat) : (s.setDie d u).clusterAt j = s.clusterAt j := rfl
@[simp] theorem State.setDie_partAt (d : Nat) (u : DieUnit) (j : Nat) : (s.setDie d u).partAt j = s.partAt j := rfl
@[simp] theorem State.setDie_queueAt (d : Nat) (u : DieUnit) (j : Nat) : (s.setDie d u).queueAt j = s.queueAt j := rfl
@[simp] theorem State.setDie_launchAt (d : Nat) (u : DieUnit) (j : Nat) : (s.setDie d u).launchAt j = s.launchAt j := rfl

@[simp] theorem State.setPart_sched (p : Nat) (u : PartUnit) : (s.setPart p u).sched = s.sched := rfl
@[simp] theorem State.setPart_cycle (p : Nat) (u : PartUnit) : (s.setPart p u).cycle = s.cycle := rfl
@[simp] theorem State.setPart_draws (p : Nat) (u : PartUnit) : (s.setPart p u).draws = s.draws := rfl
@[simp] theorem State.setPart_mem (p : Nat) (u : PartUnit) : (s.setPart p u).mem = s.mem := rfl
@[simp] theorem State.setPart_spad (p : Nat) (u : PartUnit) : (s.setPart p u).spad = s.spad := rfl
@[simp] theorem State.setPart_groups (p : Nat) (u : PartUnit) : (s.setPart p u).groups = s.groups := rfl
@[simp] theorem State.setPart_cores (p : Nat) (u : PartUnit) : (s.setPart p u).cores = s.cores := rfl
@[simp] theorem State.setPart_clusters (p : Nat) (u : PartUnit) : (s.setPart p u).clusters = s.clusters := rfl
@[simp] theorem State.setPart_dies (p : Nat) (u : PartUnit) : (s.setPart p u).dies = s.dies := rfl
@[simp] theorem State.setPart_queues (p : Nat) (u : PartUnit) : (s.setPart p u).queues = s.queues := rfl
@[simp] theorem State.setPart_fetched (p : Nat) (u : PartUnit) : (s.setPart p u).fetched = s.fetched := rfl
@[simp] theorem State.setPart_posted (p : Nat) (u : PartUnit) : (s.setPart p u).posted = s.posted := rfl
@[simp] theorem State.setPart_launches (p : Nat) (u : PartUnit) : (s.setPart p u).launches = s.launches := rfl
@[simp] theorem State.setPart_nextLaunch (p : Nat) (u : PartUnit) : (s.setPart p u).nextLaunch = s.nextLaunch := rfl
@[simp] theorem State.setPart_saved (p : Nat) (u : PartUnit) : (s.setPart p u).saved = s.saved := rfl
@[simp] theorem State.setPart_nextToken (p : Nat) (u : PartUnit) : (s.setPart p u).nextToken = s.nextToken := rfl
@[simp] theorem State.setPart_qdbase (p : Nat) (u : PartUnit) : (s.setPart p u).qdbase = s.qdbase := rfl
@[simp] theorem State.setPart_cached (p : Nat) (u : PartUnit) : (s.setPart p u).cached = s.cached := rfl
@[simp] theorem State.setPart_walkPast (p : Nat) (u : PartUnit) : (s.setPart p u).walkPast = s.walkPast := rfl
@[simp] theorem State.setPart_hostRequests (p : Nat) (u : PartUnit) : (s.setPart p u).hostRequests = s.hostRequests := rfl
@[simp] theorem State.setPart_invalidation (p : Nat) (u : PartUnit) : (s.setPart p u).invalidation = s.invalidation := rfl
@[simp] theorem State.setPart_invalReg (p : Nat) (u : PartUnit) : (s.setPart p u).invalReg = s.invalReg := rfl
@[simp] theorem State.setPart_invalDrop (p : Nat) (u : PartUnit) : (s.setPart p u).invalDrop = s.invalDrop := rfl
@[simp] theorem State.setPart_migrations (p : Nat) (u : PartUnit) : (s.setPart p u).migrations = s.migrations := rfl
@[simp] theorem State.setPart_msixUnmasked (p : Nat) (u : PartUnit) : (s.setPart p u).msixUnmasked = s.msixUnmasked := rfl
@[simp] theorem State.setPart_msixPending (p : Nat) (u : PartUnit) : (s.setPart p u).msixPending = s.msixPending := rfl
@[simp] theorem State.setPart_msixSent (p : Nat) (u : PartUnit) : (s.setPart p u).msixSent = s.msixSent := rfl
@[simp] theorem State.setPart_bandwidth (p : Nat) (u : PartUnit) : (s.setPart p u).bandwidth = s.bandwidth := rfl
@[simp] theorem State.setPart_leases (p : Nat) (u : PartUnit) : (s.setPart p u).leases = s.leases := rfl
@[simp] theorem State.setPart_lmaps (p : Nat) (u : PartUnit) : (s.setPart p u).lmaps = s.lmaps := rfl
@[simp] theorem State.setPart_fabric (p : Nat) (u : PartUnit) : (s.setPart p u).fabric = s.fabric := rfl
@[simp] theorem State.setPart_windows (p : Nat) (u : PartUnit) : (s.setPart p u).windows = s.windows := rfl
@[simp] theorem State.setPart_ckpt (p : Nat) (u : PartUnit) : (s.setPart p u).ckpt = s.ckpt := rfl
@[simp] theorem State.setPart_colls (p : Nat) (u : PartUnit) : (s.setPart p u).colls = s.colls := rfl
@[simp] theorem State.setPart_coords (p : Nat) (u : PartUnit) : (s.setPart p u).coords = s.coords := rfl
@[simp] theorem State.setPart_concluded (p : Nat) (u : PartUnit) : (s.setPart p u).concluded = s.concluded := rfl
@[simp] theorem State.setPart_postedColls (p : Nat) (u : PartUnit) : (s.setPart p u).postedColls = s.postedColls := rfl
@[simp] theorem State.setPart_teardown (p : Nat) (u : PartUnit) : (s.setPart p u).teardown = s.teardown := rfl
@[simp] theorem State.setPart_root (p : Nat) (u : PartUnit) : (s.setPart p u).root = s.root := rfl
@[simp] theorem State.setPart_dieMask (p : Nat) (u : PartUnit) : (s.setPart p u).dieMask = s.dieMask := rfl
@[simp] theorem State.setPart_hostLink (p : Nat) (u : PartUnit) : (s.setPart p u).hostLink = s.hostLink := rfl
@[simp] theorem State.setPart_grp (p : Nat) (u : PartUnit) (j : Nat) : (s.setPart p u).grp j = s.grp j := rfl
@[simp] theorem State.setPart_coreAt (p : Nat) (u : PartUnit) (j : Nat) : (s.setPart p u).coreAt j = s.coreAt j := rfl
@[simp] theorem State.setPart_clusterAt (p : Nat) (u : PartUnit) (j : Nat) : (s.setPart p u).clusterAt j = s.clusterAt j := rfl
@[simp] theorem State.setPart_dieAt (p : Nat) (u : PartUnit) (j : Nat) : (s.setPart p u).dieAt j = s.dieAt j := rfl
@[simp] theorem State.setPart_queueAt (p : Nat) (u : PartUnit) (j : Nat) : (s.setPart p u).queueAt j = s.queueAt j := rfl
@[simp] theorem State.setPart_launchAt (p : Nat) (u : PartUnit) (j : Nat) : (s.setPart p u).launchAt j = s.launchAt j := rfl

@[simp] theorem State.setQueue_sched (q : Nat) (u : QueueUnit) : (s.setQueue q u).sched = s.sched := rfl
@[simp] theorem State.setQueue_cycle (q : Nat) (u : QueueUnit) : (s.setQueue q u).cycle = s.cycle := rfl
@[simp] theorem State.setQueue_draws (q : Nat) (u : QueueUnit) : (s.setQueue q u).draws = s.draws := rfl
@[simp] theorem State.setQueue_mem (q : Nat) (u : QueueUnit) : (s.setQueue q u).mem = s.mem := rfl
@[simp] theorem State.setQueue_spad (q : Nat) (u : QueueUnit) : (s.setQueue q u).spad = s.spad := rfl
@[simp] theorem State.setQueue_groups (q : Nat) (u : QueueUnit) : (s.setQueue q u).groups = s.groups := rfl
@[simp] theorem State.setQueue_cores (q : Nat) (u : QueueUnit) : (s.setQueue q u).cores = s.cores := rfl
@[simp] theorem State.setQueue_clusters (q : Nat) (u : QueueUnit) : (s.setQueue q u).clusters = s.clusters := rfl
@[simp] theorem State.setQueue_dies (q : Nat) (u : QueueUnit) : (s.setQueue q u).dies = s.dies := rfl
@[simp] theorem State.setQueue_parts (q : Nat) (u : QueueUnit) : (s.setQueue q u).parts = s.parts := rfl
@[simp] theorem State.setQueue_fetched (q : Nat) (u : QueueUnit) : (s.setQueue q u).fetched = s.fetched := rfl
@[simp] theorem State.setQueue_posted (q : Nat) (u : QueueUnit) : (s.setQueue q u).posted = s.posted := rfl
@[simp] theorem State.setQueue_launches (q : Nat) (u : QueueUnit) : (s.setQueue q u).launches = s.launches := rfl
@[simp] theorem State.setQueue_nextLaunch (q : Nat) (u : QueueUnit) : (s.setQueue q u).nextLaunch = s.nextLaunch := rfl
@[simp] theorem State.setQueue_saved (q : Nat) (u : QueueUnit) : (s.setQueue q u).saved = s.saved := rfl
@[simp] theorem State.setQueue_nextToken (q : Nat) (u : QueueUnit) : (s.setQueue q u).nextToken = s.nextToken := rfl
@[simp] theorem State.setQueue_qdbase (q : Nat) (u : QueueUnit) : (s.setQueue q u).qdbase = s.qdbase := rfl
@[simp] theorem State.setQueue_cached (q : Nat) (u : QueueUnit) : (s.setQueue q u).cached = s.cached := rfl
@[simp] theorem State.setQueue_walkPast (q : Nat) (u : QueueUnit) : (s.setQueue q u).walkPast = s.walkPast := rfl
@[simp] theorem State.setQueue_hostRequests (q : Nat) (u : QueueUnit) : (s.setQueue q u).hostRequests = s.hostRequests := rfl
@[simp] theorem State.setQueue_invalidation (q : Nat) (u : QueueUnit) : (s.setQueue q u).invalidation = s.invalidation := rfl
@[simp] theorem State.setQueue_invalReg (q : Nat) (u : QueueUnit) : (s.setQueue q u).invalReg = s.invalReg := rfl
@[simp] theorem State.setQueue_invalDrop (q : Nat) (u : QueueUnit) : (s.setQueue q u).invalDrop = s.invalDrop := rfl
@[simp] theorem State.setQueue_migrations (q : Nat) (u : QueueUnit) : (s.setQueue q u).migrations = s.migrations := rfl
@[simp] theorem State.setQueue_msixUnmasked (q : Nat) (u : QueueUnit) : (s.setQueue q u).msixUnmasked = s.msixUnmasked := rfl
@[simp] theorem State.setQueue_msixPending (q : Nat) (u : QueueUnit) : (s.setQueue q u).msixPending = s.msixPending := rfl
@[simp] theorem State.setQueue_msixSent (q : Nat) (u : QueueUnit) : (s.setQueue q u).msixSent = s.msixSent := rfl
@[simp] theorem State.setQueue_bandwidth (q : Nat) (u : QueueUnit) : (s.setQueue q u).bandwidth = s.bandwidth := rfl
@[simp] theorem State.setQueue_leases (q : Nat) (u : QueueUnit) : (s.setQueue q u).leases = s.leases := rfl
@[simp] theorem State.setQueue_lmaps (q : Nat) (u : QueueUnit) : (s.setQueue q u).lmaps = s.lmaps := rfl
@[simp] theorem State.setQueue_fabric (q : Nat) (u : QueueUnit) : (s.setQueue q u).fabric = s.fabric := rfl
@[simp] theorem State.setQueue_windows (q : Nat) (u : QueueUnit) : (s.setQueue q u).windows = s.windows := rfl
@[simp] theorem State.setQueue_ckpt (q : Nat) (u : QueueUnit) : (s.setQueue q u).ckpt = s.ckpt := rfl
@[simp] theorem State.setQueue_colls (q : Nat) (u : QueueUnit) : (s.setQueue q u).colls = s.colls := rfl
@[simp] theorem State.setQueue_coords (q : Nat) (u : QueueUnit) : (s.setQueue q u).coords = s.coords := rfl
@[simp] theorem State.setQueue_concluded (q : Nat) (u : QueueUnit) : (s.setQueue q u).concluded = s.concluded := rfl
@[simp] theorem State.setQueue_postedColls (q : Nat) (u : QueueUnit) : (s.setQueue q u).postedColls = s.postedColls := rfl
@[simp] theorem State.setQueue_teardown (q : Nat) (u : QueueUnit) : (s.setQueue q u).teardown = s.teardown := rfl
@[simp] theorem State.setQueue_root (q : Nat) (u : QueueUnit) : (s.setQueue q u).root = s.root := rfl
@[simp] theorem State.setQueue_dieMask (q : Nat) (u : QueueUnit) : (s.setQueue q u).dieMask = s.dieMask := rfl
@[simp] theorem State.setQueue_hostLink (q : Nat) (u : QueueUnit) : (s.setQueue q u).hostLink = s.hostLink := rfl
@[simp] theorem State.setQueue_grp (q : Nat) (u : QueueUnit) (j : Nat) : (s.setQueue q u).grp j = s.grp j := rfl
@[simp] theorem State.setQueue_coreAt (q : Nat) (u : QueueUnit) (j : Nat) : (s.setQueue q u).coreAt j = s.coreAt j := rfl
@[simp] theorem State.setQueue_clusterAt (q : Nat) (u : QueueUnit) (j : Nat) : (s.setQueue q u).clusterAt j = s.clusterAt j := rfl
@[simp] theorem State.setQueue_dieAt (q : Nat) (u : QueueUnit) (j : Nat) : (s.setQueue q u).dieAt j = s.dieAt j := rfl
@[simp] theorem State.setQueue_partAt (q : Nat) (u : QueueUnit) (j : Nat) : (s.setQueue q u).partAt j = s.partAt j := rfl
@[simp] theorem State.setQueue_launchAt (q : Nat) (u : QueueUnit) (j : Nat) : (s.setQueue q u).launchAt j = s.launchAt j := rfl

@[simp] theorem State.setLaunch_sched (n : Nat) (l : Launch) : (s.setLaunch n l).sched = s.sched := rfl
@[simp] theorem State.setLaunch_cycle (n : Nat) (l : Launch) : (s.setLaunch n l).cycle = s.cycle := rfl
@[simp] theorem State.setLaunch_draws (n : Nat) (l : Launch) : (s.setLaunch n l).draws = s.draws := rfl
@[simp] theorem State.setLaunch_mem (n : Nat) (l : Launch) : (s.setLaunch n l).mem = s.mem := rfl
@[simp] theorem State.setLaunch_spad (n : Nat) (l : Launch) : (s.setLaunch n l).spad = s.spad := rfl
@[simp] theorem State.setLaunch_groups (n : Nat) (l : Launch) : (s.setLaunch n l).groups = s.groups := rfl
@[simp] theorem State.setLaunch_cores (n : Nat) (l : Launch) : (s.setLaunch n l).cores = s.cores := rfl
@[simp] theorem State.setLaunch_clusters (n : Nat) (l : Launch) : (s.setLaunch n l).clusters = s.clusters := rfl
@[simp] theorem State.setLaunch_dies (n : Nat) (l : Launch) : (s.setLaunch n l).dies = s.dies := rfl
@[simp] theorem State.setLaunch_parts (n : Nat) (l : Launch) : (s.setLaunch n l).parts = s.parts := rfl
@[simp] theorem State.setLaunch_queues (n : Nat) (l : Launch) : (s.setLaunch n l).queues = s.queues := rfl
@[simp] theorem State.setLaunch_fetched (n : Nat) (l : Launch) : (s.setLaunch n l).fetched = s.fetched := rfl
@[simp] theorem State.setLaunch_posted (n : Nat) (l : Launch) : (s.setLaunch n l).posted = s.posted := rfl
@[simp] theorem State.setLaunch_nextLaunch (n : Nat) (l : Launch) : (s.setLaunch n l).nextLaunch = s.nextLaunch := rfl
@[simp] theorem State.setLaunch_saved (n : Nat) (l : Launch) : (s.setLaunch n l).saved = s.saved := rfl
@[simp] theorem State.setLaunch_nextToken (n : Nat) (l : Launch) : (s.setLaunch n l).nextToken = s.nextToken := rfl
@[simp] theorem State.setLaunch_qdbase (n : Nat) (l : Launch) : (s.setLaunch n l).qdbase = s.qdbase := rfl
@[simp] theorem State.setLaunch_cached (n : Nat) (l : Launch) : (s.setLaunch n l).cached = s.cached := rfl
@[simp] theorem State.setLaunch_walkPast (n : Nat) (l : Launch) : (s.setLaunch n l).walkPast = s.walkPast := rfl
@[simp] theorem State.setLaunch_hostRequests (n : Nat) (l : Launch) : (s.setLaunch n l).hostRequests = s.hostRequests := rfl
@[simp] theorem State.setLaunch_invalidation (n : Nat) (l : Launch) : (s.setLaunch n l).invalidation = s.invalidation := rfl
@[simp] theorem State.setLaunch_invalReg (n : Nat) (l : Launch) : (s.setLaunch n l).invalReg = s.invalReg := rfl
@[simp] theorem State.setLaunch_invalDrop (n : Nat) (l : Launch) : (s.setLaunch n l).invalDrop = s.invalDrop := rfl
@[simp] theorem State.setLaunch_migrations (n : Nat) (l : Launch) : (s.setLaunch n l).migrations = s.migrations := rfl
@[simp] theorem State.setLaunch_msixUnmasked (n : Nat) (l : Launch) : (s.setLaunch n l).msixUnmasked = s.msixUnmasked := rfl
@[simp] theorem State.setLaunch_msixPending (n : Nat) (l : Launch) : (s.setLaunch n l).msixPending = s.msixPending := rfl
@[simp] theorem State.setLaunch_msixSent (n : Nat) (l : Launch) : (s.setLaunch n l).msixSent = s.msixSent := rfl
@[simp] theorem State.setLaunch_bandwidth (n : Nat) (l : Launch) : (s.setLaunch n l).bandwidth = s.bandwidth := rfl
@[simp] theorem State.setLaunch_leases (n : Nat) (l : Launch) : (s.setLaunch n l).leases = s.leases := rfl
@[simp] theorem State.setLaunch_lmaps (n : Nat) (l : Launch) : (s.setLaunch n l).lmaps = s.lmaps := rfl
@[simp] theorem State.setLaunch_fabric (n : Nat) (l : Launch) : (s.setLaunch n l).fabric = s.fabric := rfl
@[simp] theorem State.setLaunch_windows (n : Nat) (l : Launch) : (s.setLaunch n l).windows = s.windows := rfl
@[simp] theorem State.setLaunch_ckpt (n : Nat) (l : Launch) : (s.setLaunch n l).ckpt = s.ckpt := rfl
@[simp] theorem State.setLaunch_colls (n : Nat) (l : Launch) : (s.setLaunch n l).colls = s.colls := rfl
@[simp] theorem State.setLaunch_coords (n : Nat) (l : Launch) : (s.setLaunch n l).coords = s.coords := rfl
@[simp] theorem State.setLaunch_concluded (n : Nat) (l : Launch) : (s.setLaunch n l).concluded = s.concluded := rfl
@[simp] theorem State.setLaunch_postedColls (n : Nat) (l : Launch) : (s.setLaunch n l).postedColls = s.postedColls := rfl
@[simp] theorem State.setLaunch_teardown (n : Nat) (l : Launch) : (s.setLaunch n l).teardown = s.teardown := rfl
@[simp] theorem State.setLaunch_root (n : Nat) (l : Launch) : (s.setLaunch n l).root = s.root := rfl
@[simp] theorem State.setLaunch_dieMask (n : Nat) (l : Launch) : (s.setLaunch n l).dieMask = s.dieMask := rfl
@[simp] theorem State.setLaunch_hostLink (n : Nat) (l : Launch) : (s.setLaunch n l).hostLink = s.hostLink := rfl
@[simp] theorem State.setLaunch_grp (n : Nat) (l : Launch) (j : Nat) : (s.setLaunch n l).grp j = s.grp j := rfl
@[simp] theorem State.setLaunch_coreAt (n : Nat) (l : Launch) (j : Nat) : (s.setLaunch n l).coreAt j = s.coreAt j := rfl
@[simp] theorem State.setLaunch_clusterAt (n : Nat) (l : Launch) (j : Nat) : (s.setLaunch n l).clusterAt j = s.clusterAt j := rfl
@[simp] theorem State.setLaunch_dieAt (n : Nat) (l : Launch) (j : Nat) : (s.setLaunch n l).dieAt j = s.dieAt j := rfl
@[simp] theorem State.setLaunch_partAt (n : Nat) (l : Launch) (j : Nat) : (s.setLaunch n l).partAt j = s.partAt j := rfl
@[simp] theorem State.setLaunch_queueAt (n : Nat) (l : Launch) (j : Nat) : (s.setLaunch n l).queueAt j = s.queueAt j := rfl

@[simp] theorem State.memWrite_sched (a n v : Nat) : (s.memWrite a n v).sched = s.sched := rfl
@[simp] theorem State.memWrite_cycle (a n v : Nat) : (s.memWrite a n v).cycle = s.cycle := rfl
@[simp] theorem State.memWrite_draws (a n v : Nat) : (s.memWrite a n v).draws = s.draws := rfl
@[simp] theorem State.memWrite_spad (a n v : Nat) : (s.memWrite a n v).spad = s.spad := rfl
@[simp] theorem State.memWrite_groups (a n v : Nat) : (s.memWrite a n v).groups = s.groups := rfl
@[simp] theorem State.memWrite_cores (a n v : Nat) : (s.memWrite a n v).cores = s.cores := rfl
@[simp] theorem State.memWrite_clusters (a n v : Nat) : (s.memWrite a n v).clusters = s.clusters := rfl
@[simp] theorem State.memWrite_dies (a n v : Nat) : (s.memWrite a n v).dies = s.dies := rfl
@[simp] theorem State.memWrite_parts (a n v : Nat) : (s.memWrite a n v).parts = s.parts := rfl
@[simp] theorem State.memWrite_queues (a n v : Nat) : (s.memWrite a n v).queues = s.queues := rfl
@[simp] theorem State.memWrite_fetched (a n v : Nat) : (s.memWrite a n v).fetched = s.fetched := rfl
@[simp] theorem State.memWrite_posted (a n v : Nat) : (s.memWrite a n v).posted = s.posted := rfl
@[simp] theorem State.memWrite_launches (a n v : Nat) : (s.memWrite a n v).launches = s.launches := rfl
@[simp] theorem State.memWrite_nextLaunch (a n v : Nat) : (s.memWrite a n v).nextLaunch = s.nextLaunch := rfl
@[simp] theorem State.memWrite_saved (a n v : Nat) : (s.memWrite a n v).saved = s.saved := rfl
@[simp] theorem State.memWrite_nextToken (a n v : Nat) : (s.memWrite a n v).nextToken = s.nextToken := rfl
@[simp] theorem State.memWrite_qdbase (a n v : Nat) : (s.memWrite a n v).qdbase = s.qdbase := rfl
@[simp] theorem State.memWrite_cached (a n v : Nat) : (s.memWrite a n v).cached = s.cached := rfl
@[simp] theorem State.memWrite_walkPast (a n v : Nat) : (s.memWrite a n v).walkPast = s.walkPast := rfl
@[simp] theorem State.memWrite_hostRequests (a n v : Nat) : (s.memWrite a n v).hostRequests = s.hostRequests := rfl
@[simp] theorem State.memWrite_invalidation (a n v : Nat) : (s.memWrite a n v).invalidation = s.invalidation := rfl
@[simp] theorem State.memWrite_invalReg (a n v : Nat) : (s.memWrite a n v).invalReg = s.invalReg := rfl
@[simp] theorem State.memWrite_invalDrop (a n v : Nat) : (s.memWrite a n v).invalDrop = s.invalDrop := rfl
@[simp] theorem State.memWrite_migrations (a n v : Nat) : (s.memWrite a n v).migrations = s.migrations := rfl
@[simp] theorem State.memWrite_msixUnmasked (a n v : Nat) : (s.memWrite a n v).msixUnmasked = s.msixUnmasked := rfl
@[simp] theorem State.memWrite_msixPending (a n v : Nat) : (s.memWrite a n v).msixPending = s.msixPending := rfl
@[simp] theorem State.memWrite_msixSent (a n v : Nat) : (s.memWrite a n v).msixSent = s.msixSent := rfl
@[simp] theorem State.memWrite_bandwidth (a n v : Nat) : (s.memWrite a n v).bandwidth = s.bandwidth := rfl
@[simp] theorem State.memWrite_leases (a n v : Nat) : (s.memWrite a n v).leases = s.leases := rfl
@[simp] theorem State.memWrite_lmaps (a n v : Nat) : (s.memWrite a n v).lmaps = s.lmaps := rfl
@[simp] theorem State.memWrite_fabric (a n v : Nat) : (s.memWrite a n v).fabric = s.fabric := rfl
@[simp] theorem State.memWrite_windows (a n v : Nat) : (s.memWrite a n v).windows = s.windows := rfl
@[simp] theorem State.memWrite_ckpt (a n v : Nat) : (s.memWrite a n v).ckpt = s.ckpt := rfl
@[simp] theorem State.memWrite_colls (a n v : Nat) : (s.memWrite a n v).colls = s.colls := rfl
@[simp] theorem State.memWrite_coords (a n v : Nat) : (s.memWrite a n v).coords = s.coords := rfl
@[simp] theorem State.memWrite_concluded (a n v : Nat) : (s.memWrite a n v).concluded = s.concluded := rfl
@[simp] theorem State.memWrite_postedColls (a n v : Nat) : (s.memWrite a n v).postedColls = s.postedColls := rfl
@[simp] theorem State.memWrite_teardown (a n v : Nat) : (s.memWrite a n v).teardown = s.teardown := rfl
@[simp] theorem State.memWrite_root (a n v : Nat) : (s.memWrite a n v).root = s.root := rfl
@[simp] theorem State.memWrite_dieMask (a n v : Nat) : (s.memWrite a n v).dieMask = s.dieMask := rfl
@[simp] theorem State.memWrite_hostLink (a n v : Nat) : (s.memWrite a n v).hostLink = s.hostLink := rfl
@[simp] theorem State.memWrite_grp (a n v : Nat) (j : Nat) : (s.memWrite a n v).grp j = s.grp j := rfl
@[simp] theorem State.memWrite_coreAt (a n v : Nat) (j : Nat) : (s.memWrite a n v).coreAt j = s.coreAt j := rfl
@[simp] theorem State.memWrite_clusterAt (a n v : Nat) (j : Nat) : (s.memWrite a n v).clusterAt j = s.clusterAt j := rfl
@[simp] theorem State.memWrite_dieAt (a n v : Nat) (j : Nat) : (s.memWrite a n v).dieAt j = s.dieAt j := rfl
@[simp] theorem State.memWrite_partAt (a n v : Nat) (j : Nat) : (s.memWrite a n v).partAt j = s.partAt j := rfl
@[simp] theorem State.memWrite_queueAt (a n v : Nat) (j : Nat) : (s.memWrite a n v).queueAt j = s.queueAt j := rfl
@[simp] theorem State.memWrite_launchAt (a n v : Nat) (j : Nat) : (s.memWrite a n v).launchAt j = s.launchAt j := rfl

@[simp] theorem State.spadWrite_sched (c off n v : Nat) : (s.spadWrite c off n v).sched = s.sched := rfl
@[simp] theorem State.spadWrite_cycle (c off n v : Nat) : (s.spadWrite c off n v).cycle = s.cycle := rfl
@[simp] theorem State.spadWrite_draws (c off n v : Nat) : (s.spadWrite c off n v).draws = s.draws := rfl
@[simp] theorem State.spadWrite_mem (c off n v : Nat) : (s.spadWrite c off n v).mem = s.mem := rfl
@[simp] theorem State.spadWrite_groups (c off n v : Nat) : (s.spadWrite c off n v).groups = s.groups := rfl
@[simp] theorem State.spadWrite_cores (c off n v : Nat) : (s.spadWrite c off n v).cores = s.cores := rfl
@[simp] theorem State.spadWrite_clusters (c off n v : Nat) : (s.spadWrite c off n v).clusters = s.clusters := rfl
@[simp] theorem State.spadWrite_dies (c off n v : Nat) : (s.spadWrite c off n v).dies = s.dies := rfl
@[simp] theorem State.spadWrite_parts (c off n v : Nat) : (s.spadWrite c off n v).parts = s.parts := rfl
@[simp] theorem State.spadWrite_queues (c off n v : Nat) : (s.spadWrite c off n v).queues = s.queues := rfl
@[simp] theorem State.spadWrite_fetched (c off n v : Nat) : (s.spadWrite c off n v).fetched = s.fetched := rfl
@[simp] theorem State.spadWrite_posted (c off n v : Nat) : (s.spadWrite c off n v).posted = s.posted := rfl
@[simp] theorem State.spadWrite_launches (c off n v : Nat) : (s.spadWrite c off n v).launches = s.launches := rfl
@[simp] theorem State.spadWrite_nextLaunch (c off n v : Nat) : (s.spadWrite c off n v).nextLaunch = s.nextLaunch := rfl
@[simp] theorem State.spadWrite_saved (c off n v : Nat) : (s.spadWrite c off n v).saved = s.saved := rfl
@[simp] theorem State.spadWrite_nextToken (c off n v : Nat) : (s.spadWrite c off n v).nextToken = s.nextToken := rfl
@[simp] theorem State.spadWrite_qdbase (c off n v : Nat) : (s.spadWrite c off n v).qdbase = s.qdbase := rfl
@[simp] theorem State.spadWrite_cached (c off n v : Nat) : (s.spadWrite c off n v).cached = s.cached := rfl
@[simp] theorem State.spadWrite_walkPast (c off n v : Nat) : (s.spadWrite c off n v).walkPast = s.walkPast := rfl
@[simp] theorem State.spadWrite_hostRequests (c off n v : Nat) : (s.spadWrite c off n v).hostRequests = s.hostRequests := rfl
@[simp] theorem State.spadWrite_invalidation (c off n v : Nat) : (s.spadWrite c off n v).invalidation = s.invalidation := rfl
@[simp] theorem State.spadWrite_invalReg (c off n v : Nat) : (s.spadWrite c off n v).invalReg = s.invalReg := rfl
@[simp] theorem State.spadWrite_invalDrop (c off n v : Nat) : (s.spadWrite c off n v).invalDrop = s.invalDrop := rfl
@[simp] theorem State.spadWrite_migrations (c off n v : Nat) : (s.spadWrite c off n v).migrations = s.migrations := rfl
@[simp] theorem State.spadWrite_msixUnmasked (c off n v : Nat) : (s.spadWrite c off n v).msixUnmasked = s.msixUnmasked := rfl
@[simp] theorem State.spadWrite_msixPending (c off n v : Nat) : (s.spadWrite c off n v).msixPending = s.msixPending := rfl
@[simp] theorem State.spadWrite_msixSent (c off n v : Nat) : (s.spadWrite c off n v).msixSent = s.msixSent := rfl
@[simp] theorem State.spadWrite_bandwidth (c off n v : Nat) : (s.spadWrite c off n v).bandwidth = s.bandwidth := rfl
@[simp] theorem State.spadWrite_leases (c off n v : Nat) : (s.spadWrite c off n v).leases = s.leases := rfl
@[simp] theorem State.spadWrite_lmaps (c off n v : Nat) : (s.spadWrite c off n v).lmaps = s.lmaps := rfl
@[simp] theorem State.spadWrite_fabric (c off n v : Nat) : (s.spadWrite c off n v).fabric = s.fabric := rfl
@[simp] theorem State.spadWrite_windows (c off n v : Nat) : (s.spadWrite c off n v).windows = s.windows := rfl
@[simp] theorem State.spadWrite_ckpt (c off n v : Nat) : (s.spadWrite c off n v).ckpt = s.ckpt := rfl
@[simp] theorem State.spadWrite_colls (c off n v : Nat) : (s.spadWrite c off n v).colls = s.colls := rfl
@[simp] theorem State.spadWrite_coords (c off n v : Nat) : (s.spadWrite c off n v).coords = s.coords := rfl
@[simp] theorem State.spadWrite_concluded (c off n v : Nat) : (s.spadWrite c off n v).concluded = s.concluded := rfl
@[simp] theorem State.spadWrite_postedColls (c off n v : Nat) : (s.spadWrite c off n v).postedColls = s.postedColls := rfl
@[simp] theorem State.spadWrite_teardown (c off n v : Nat) : (s.spadWrite c off n v).teardown = s.teardown := rfl
@[simp] theorem State.spadWrite_root (c off n v : Nat) : (s.spadWrite c off n v).root = s.root := rfl
@[simp] theorem State.spadWrite_dieMask (c off n v : Nat) : (s.spadWrite c off n v).dieMask = s.dieMask := rfl
@[simp] theorem State.spadWrite_hostLink (c off n v : Nat) : (s.spadWrite c off n v).hostLink = s.hostLink := rfl
@[simp] theorem State.spadWrite_grp (c off n v : Nat) (j : Nat) : (s.spadWrite c off n v).grp j = s.grp j := rfl
@[simp] theorem State.spadWrite_coreAt (c off n v : Nat) (j : Nat) : (s.spadWrite c off n v).coreAt j = s.coreAt j := rfl
@[simp] theorem State.spadWrite_clusterAt (c off n v : Nat) (j : Nat) : (s.spadWrite c off n v).clusterAt j = s.clusterAt j := rfl
@[simp] theorem State.spadWrite_dieAt (c off n v : Nat) (j : Nat) : (s.spadWrite c off n v).dieAt j = s.dieAt j := rfl
@[simp] theorem State.spadWrite_partAt (c off n v : Nat) (j : Nat) : (s.spadWrite c off n v).partAt j = s.partAt j := rfl
@[simp] theorem State.spadWrite_queueAt (c off n v : Nat) (j : Nat) : (s.spadWrite c off n v).queueAt j = s.queueAt j := rfl
@[simp] theorem State.spadWrite_launchAt (c off n v : Nat) (j : Nat) : (s.spadWrite c off n v).launchAt j = s.launchAt j := rfl

@[simp] theorem State.grp_setGrp (t : Nat) (g : Grp) : (s.setGrp t g).grp t = some g := Assoc.find?_put_same _ _ _
@[simp] theorem State.grp_setGrp_other {t u : Nat} (g : Grp) (h : u ≠ t) : (s.setGrp t g).grp u = s.grp u :=
  Assoc.find?_put_other _ _ h
@[simp] theorem State.setGrp_setGrp (t : Nat) (g h : Grp) : (s.setGrp t g).setGrp t h = s.setGrp t h := by
  simp [State.setGrp]
@[simp] theorem State.grp_delGrp (t : Nat) : (s.delGrp t).grp t = none := Assoc.find?_del_same _ _
@[simp] theorem State.grp_delGrp_other {t u : Nat} (h : u ≠ t) : (s.delGrp t).grp u = s.grp u := Assoc.find?_del_other _ h
@[simp] theorem State.coreAt_setCore (c : Nat) (u : CoreUnit) : (s.setCore c u).coreAt c = u := FMap.get_set_same _ _ _ _
@[simp] theorem State.coreAt_setCore_other {c d : Nat} (u : CoreUnit) (h : d ≠ c) : (s.setCore c u).coreAt d = s.coreAt d :=
  FMap.get_set_other _ _ _ h
@[simp] theorem State.clusterAt_setCluster (c : Nat) (u : ClusterUnit) : (s.setCluster c u).clusterAt c = u :=
  FMap.get_set_same _ _ _ _
@[simp] theorem State.dieAt_setDie (c : Nat) (u : DieUnit) : (s.setDie c u).dieAt c = u := FMap.get_set_same _ _ _ _
@[simp] theorem State.partAt_setPart (c : Nat) (u : PartUnit) : (s.setPart c u).partAt c = u := FMap.get_set_same _ _ _ _
@[simp] theorem State.partAt_setPart_other {c d : Nat} (u : PartUnit) (h : d ≠ c) : (s.setPart c u).partAt d = s.partAt d :=
  FMap.get_set_other _ _ _ h
@[simp] theorem State.queueAt_setQueue (c : Nat) (u : QueueUnit) : (s.setQueue c u).queueAt c = u := FMap.get_set_same _ _ _ _
@[simp] theorem State.launchAt_setLaunch (n : Nat) (l : Launch) : (s.setLaunch n l).launchAt n = some l :=
  Assoc.find?_put_same _ _ _

theorem State.modGrp_eq {s : State} {t : Nat} {g : Grp} (f : Grp → Grp) (h : s.grp t = some g) :
    s.modGrp t f = s.setGrp t (f g) := by simp [State.modGrp, h]

@[simp] theorem State.modGrp_setGrp (t : Nat) (g : Grp) (f : Grp → Grp) : (s.setGrp t g).modGrp t f = s.setGrp t (f g) := by
  simp [State.modGrp]

@[simp] theorem Grp.reg_zero (g : Grp) : g.reg 0 = 0 := rfl

/-- A register after a write: s0 discards it (R34). -/
theorem Grp.reg_setReg (g : Grp) (n m : Nat) (x : W64) : (g.setReg n x).reg m = if m = n ∧ m ≠ 0 then x else g.reg m := by
  by_cases hn : n = 0
  · subst hn; by_cases hm : m = 0 <;> simp [Grp.setReg, hm]
  · by_cases hm : m = 0
    · simp [hm]
    · simp [Grp.setReg, Grp.reg, hn, hm, FMap.get_set]

/-- A mask register after a write. -/
theorem Grp.mask_setMask (g : Grp) (n m : Nat) (x : Mask) : (g.setMask n x).mask m = if m = n then x else g.mask m :=
  FMap.get_set _ _ _ _ _

theorem Memory.wf_memWrite (a n v : Nat) (h : Memory.wf s.mem = true) : Memory.wf (s.memWrite a n v).mem = true :=
  Memory.wf_writeNat _ _ _ _ h

theorem Memory.wf_spadWrite (c off n v : Nat) (h : Memory.wf s.spad = true) : Memory.wf (s.spadWrite c off n v).spad = true :=
  Memory.wf_writeNat _ _ _ _ h

/-- The memories of the machine after reset list nothing. -/
theorem State.reset_mem : State.reset.mem = [] ∧ State.reset.spad = [] := ⟨rfl, rfl⟩

end Sys2Proof.Machine
end

