-- ==== Sys2Proof/Laws/Issue.lean ====
section
/-!
SUPPORT. What an attempt to issue a word can do, once for all words: it leaves the state, it traps, or its effect follows.
-/
namespace Sys2Proof.Machine

open Safety

/-- A control-side word whose conditions hold has its effect. -/
theorem issueControl_run {n : Needs} {body : State → Nat → Grp → Issue} {s : State} {g : Grp} (h : AtTurn s g)
    (ht : g.wordTrap n.check n.level n.concurrent = none) (hw : n.waits s s.sched.cur g = false) :
    issueControl n body s = (body s s.sched.cur g).finish s s.sched.cur g := by
  simp [issueControl, h.1, h.2, ht, hw]

/-- A control-side word that breaks a decode check takes the trap and nothing else (R67). -/
theorem issueControl_trap {n : Needs} {body : State → Nat → Grp → Issue} {s : State} {g : Grp} {i : TrapInfo} (h : AtTurn s g)
    (ht : g.wordTrap n.check n.level n.concurrent = some i) : issueControl n body s = controlTrap s s.sched.cur g i := by
  simp [issueControl, h.1, h.2, ht]

/-- A word that waits leaves the state as it is. -/
theorem issueControl_wait {n : Needs} {body : State → Nat → Grp → Issue} {s : State} {g : Grp} (h : AtTurn s g)
    (ht : g.wordTrap n.check n.level n.concurrent = none) (hw : n.waits s s.sched.cur g = true) :
    issueControl n body s = s := by
  simp [issueControl, h.1, h.2, ht, hw]

/-- No group at its turn, or one that does not run: nothing happens. -/
theorem issueControl_idle {n : Needs} {body : State → Nat → Grp → Issue} {s : State}
    (h : ∀ g, s.grp s.sched.cur = some g → g.run ≠ .running) : issueControl n body s = s := by
  unfold issueControl
  dsimp only
  split
  · rfl
  · next g hg => simp [h g hg]

/-- The waits of a word that needs neither the queue drained nor a permission for memory. -/
theorem Needs.waits_plain {n : Needs} {s : State} {t : Nat} {g : Grp} (hf : Free g (n.reads ++ n.writes)) (hd : n.drained = false)
    (hm : n.memory = false) : n.waits s t g = false := by
  have h := hf.2
  simp only [Grp.anyPending, List.any_append, Bool.or_eq_false_iff] at h
  simp [Needs.waits, hf.1, Grp.anyPending, h.1, h.2, hd, hm]

/-- The waits of a word that needs the vector queue empty. -/
theorem Needs.waits_drained {n : Needs} {s : State} {t : Nat} {g : Grp} (hf : Free g (n.reads ++ n.writes)) (hv : g.vq = [])
    (hm : n.memory = false) (ha : g.acquiring = false) : n.waits s t g = false := by
  have h := hf.2
  simp only [Grp.anyPending, List.any_append, Bool.or_eq_false_iff] at h
  simp [Needs.waits, hf.1, Grp.anyPending, h.1, h.2, hv, hm, ha]

/-- The waits of a memory word. -/
theorem Needs.waits_memory {n : Needs} {s : State} {t : Nat} {g : Grp} (hf : Free g (n.reads ++ n.writes))
    (hd : n.drained = true → g.vq = []) (hm : memoryAllowed s t g = true) (ha : g.acquiring = false) :
    n.waits s t g = false := by
  have h := hf.2
  simp only [Grp.anyPending, List.any_append, Bool.or_eq_false_iff] at h
  cases hdr : n.drained with
  | false => simp [Needs.waits, hf.1, Grp.anyPending, h.1, h.2, hm, ha, hdr]
  | true => simp [Needs.waits, hf.1, Grp.anyPending, h.1, h.2, hm, ha, hdr, hd hdr]

/-- A word that is done goes on to the next word, where the undo log holds what it logged. -/
theorem Issue.finish_done {s s' : State} {t : Nat} {g h : Grp} (hg : s'.grp t = some h) (hu : h.undo.length ≤ Config.undoDepth) :
    Issue.finish s t g (.done s') = s'.setGrp t h.advance := by
  simp [Issue.finish, undoOverflow, hg, State.modGrp, Nat.not_lt.mpr hu]

theorem Issue.finish_jump {s s' : State} {t : Nat} {g h : Grp} {a : W64} (hg : s'.grp t = some h)
    (hu : h.undo.length ≤ Config.undoDepth) : Issue.finish s t g (.jump s' a) = s'.setGrp t (h.jumpTo a) := by
  simp [Issue.finish, undoOverflow, hg, State.modGrp, Nat.not_lt.mpr hu]

/-- The next word of a group differs from it in its place alone. -/
theorem Grp.advance_next (g : Grp) : NextWord g g.advance := by
  unfold Grp.advance
  dsimp only
  split <;> exact ⟨rfl, rfl, rfl⟩

theorem Grp.advance_s (g : Grp) : g.advance.s = g.s := by
  unfold Grp.advance
  dsimp only
  split <;> rfl

@[simp] theorem Grp.advance_reg (g : Grp) (r : Nat) : g.advance.reg r = g.reg r := by
  simp [Grp.reg, Grp.advance_s]

/-- A write of a scalar register by the control thread: its value, the other registers, the undo log. -/
theorem Grp.writeReg_reg (g : Grp) (n r : Nat) (x : W64) :
    (g.writeReg n x).reg r = if r = n ∧ r ≠ 0 then x else g.reg r := by
  unfold Grp.writeReg
  split
  · next h => subst h; split <;> simp_all
  · split
    · exact Grp.reg_setReg ..
    · exact Grp.reg_setReg g n r x

theorem Grp.writeReg_undo (g : Grp) (n : Nat) (x : W64) : (g.writeReg n x).undo.length ≤ g.undo.length + 1 := by
  unfold Grp.writeReg Grp.setReg
  split
  · simp
  · split <;> simp

theorem Grp.writeReg_advance_next (g : Grp) (n : Nat) (x : W64) : NextWord g (g.writeReg n x).advance := by
  unfold Grp.writeReg Grp.setReg
  split
  · exact Grp.advance_next g
  · split <;> (unfold Grp.advance; dsimp only; split <;> exact ⟨rfl, rfl, rfl⟩)

/-- `writeReg` then the next word: what a word that writes one register leaves. -/
theorem Grp.writeReg_setsReg (g : Grp) (d : BitVec 6) (x : W64) : SetsReg g (g.writeReg d.toNat x).advance d x := by
  constructor
  · rw [Grp.advance_reg, Grp.writeReg_reg]
    by_cases hd : d = 0
    · subst hd; simp
    · have : d.toNat ≠ 0 := fun h => hd (BitVec.eq_of_toNat_eq (by simpa using h))
      simp only [this, true_and, ne_eq, not_false_iff, if_true, hd, if_false]
  · intro r hr
    rw [Grp.advance_reg, Grp.writeReg_reg]
    simp [hr]

/-- A word that writes one register with a value of its group's registers (R138, R143, R154). -/
theorem computes_of_scalarResult {i : Instr} {n : Needs} {sd : BitVec 6} {value : Grp → W64} {reads : List (BitVec 6)}
    (he : ∀ s, exec i s = scalarResult n sd value s) (hc : n.check = i.check) (hl : n.level = .user)
    (hcc : n.concurrent = false) (hr : n.reads = reads) (hw : n.writes = [sd]) (hd : n.drained = false) (hm : n.memory = false) :
    Computes i reads sd value := by
  intro s g ⟨ht, hp, hf, hroom⟩
  refine ⟨(g.writeReg sd.toNat (value g)).advance, ?_, Grp.writeReg_setsReg _ _ _, Grp.writeReg_advance_next _ _ _⟩
  rw [he, scalarResult, issueControl_run ht (by rw [hc, hl, hcc]; exact hp)
    (Needs.waits_plain (by rw [hr, hw]; exact hf) hd hm),
    Issue.finish_done (h := g.writeReg sd.toNat (value g)) (by simp)]
  · simp
  · have := Grp.writeReg_undo g sd.toNat (value g)
    unfold Room at hroom
    omega

end Sys2Proof.Machine
end

