-- ==== Sys2Proof/Laws/Memory.lean ====
section
/-!
SUPPORT. Every operation over memory, the scratchpads and the root SRAM keeps their canonical form; and what a read gives after
a range is cleared.
-/
namespace Sys2Proof.Machine

variable {α : Type}

theorem Assoc.wfFrom_filter (f : Nat × α → Bool) (m : Assoc α) (b : Option Nat) (h : Assoc.wfFrom b m = true) :
    Assoc.wfFrom b (m.filter f) = true := by
  induction m generalizing b with
  | nil => exact h
  | cons p t ih =>
    obtain ⟨k, v⟩ := p
    have ht : Assoc.wfFrom (some k) t = true := by cases b <;> simp_all [Assoc.wfFrom]
    rw [List.filter_cons]
    split
    · have := ih _ ht
      cases b <;> simp_all [Assoc.wfFrom]
    · refine Assoc.wfFrom_weaken (ih _ ht) ?_
      rintro x rfl
      simp only [Assoc.wfFrom, Bool.and_eq_true, decide_eq_true_eq] at h
      exact ⟨k, rfl, by omega⟩

theorem Memory.wf_filter (f : Nat × Byte → Bool) (m : Memory) (h : Memory.wf m = true) : Memory.wf (m.filter f) = true := by
  simp only [Memory.wf, FMap.wf, Bool.and_eq_true, Assoc.wf, List.all_eq_true] at h ⊢
  exact ⟨Assoc.wfFrom_filter f m none h.1, fun p hp => h.2 p (List.mem_filter.mp hp).1⟩

theorem Memory.wf_clear (m : Memory) (a n : Nat) (h : Memory.wf m = true) : Memory.wf (Memory.clear m a n) = true :=
  Memory.wf_filter _ m h

theorem Assoc.find?_filter (f : Nat → Bool) (m : Assoc α) (k : Nat) :
    Assoc.find? (m.filter (fun p => f p.1)) k = if f k then Assoc.find? m k else none := by
  induction m with
  | nil => simp
  | cons p t ih =>
    obtain ⟨k', v⟩ := p
    rw [List.filter_cons]
    by_cases hk : k = k' <;> by_cases hf : f k' = true <;> simp_all [Assoc.find?]

/-- A cleared range reads as zero, and every other byte reads as before. -/
theorem Memory.read_clear (m : Memory) (a n c : Nat) :
    Memory.read (Memory.clear m a n) c = if a ≤ c ∧ c < a + n then Memory.unlisted else Memory.read m c := by
  have := Assoc.find?_filter (fun c => decide (c < a) || decide (a + n ≤ c)) m c
  simp only [Memory.read, FMap.get, Memory.clear]
  rw [this]
  by_cases h : a ≤ c ∧ c < a + n
  · have h' : (decide (c < a) || decide (a + n ≤ c)) = false := by simp; omega
    simp [h, h']
  · have h' : (decide (c < a) || decide (a + n ≤ c)) = true := by simp; omega
    simp [h, h']

theorem wf_postedBytes (mask : Nat) (m : Memory) (a : Nat) (l : List Byte) (h : Memory.wf m = true) :
    Memory.wf (postedBytes mask m a l) = true := by
  induction l generalizing m a with
  | nil => exact h
  | cons b t ih =>
    rw [postedBytes]
    split
    · exact ih _ _ (Memory.wf_write m a b h)
    · exact ih _ _ h

theorem wf_zeroFrames (m : Memory) (fs : List Nat) (h : Memory.wf m = true) : Memory.wf (zeroFrames m fs) = true := by
  unfold zeroFrames
  induction fs generalizing m with
  | nil => exact h
  | cons a t ih => exact ih _ (Memory.wf_clear m _ _ h)

theorem wf_writePlaces (m : Memory) (pas : List Nat) (v : Nat) (h : Memory.wf m = true) : Memory.wf (writePlaces m pas v) = true := by
  induction pas generalizing m v with
  | nil => exact h
  | cons a t ih => exact ih _ _ (Memory.wf_write m a _ h)

theorem wf_markLeaf (m : Memory) (l : Leaf) (k : AccessKind) (h : Memory.wf m = true) : Memory.wf (markLeaf m l k) = true := by
  unfold markLeaf
  split
  · exact h
  · split
    · exact h
    · exact Memory.wf_write _ _ _ h

theorem Memory.wf_foldl {β : Type} (f : Memory → β → Memory) (hf : ∀ m b, Memory.wf m = true → Memory.wf (f m b) = true)
    (l : List β) (m : Memory) (h : Memory.wf m = true) : Memory.wf (l.foldl f m) = true := by
  induction l generalizing m with
  | nil => exact h
  | cons b t ih => exact ih _ (hf m b h)

theorem wf_takeCheckpoint (s : State) (d : CkptData) (h : Memory.wf s.mem = true) : Memory.wf (takeCheckpoint s d).mem = true := by
  refine Memory.wf_foldl _ (fun m b hm => ?_) _ _ (Memory.wf_filter _ _ h)
  beta_reduce
  split
  · exact Memory.wf_write _ _ _ hm
  · exact hm

/-- The memories of a state are in their canonical form. -/
def State.memWf (s : State) : Bool := Memory.wf s.mem && Memory.wf s.spad && Memory.wf s.root.sram

theorem State.memWf_reset : State.reset.memWf = true := rfl

theorem State.memWf_iff (s : State) :
    s.memWf = true ↔ Memory.wf s.mem = true ∧ Memory.wf s.spad = true ∧ Memory.wf s.root.sram = true := by
  simp [State.memWf, and_assoc]

theorem State.memWf_memWrite (s : State) (pa n v : Nat) (h : s.memWf = true) : (s.memWrite pa n v).memWf = true := by
  rw [State.memWf_iff] at h ⊢
  exact ⟨Memory.wf_writeNat _ _ _ _ h.1, h.2⟩

theorem State.memWf_placeWrite (s : State) (n v : Nat) (p : Place) (h : s.memWf = true) : (s.placeWrite n v p).memWf = true := by
  rw [State.memWf_iff] at h ⊢
  match p with
  | .at _ => exact ⟨Memory.wf_writeNat _ _ _ _ h.1, h.2⟩
  | .spad _ => exact ⟨h.1, Memory.wf_writeNat _ _ _ _ h.2.1, h.2.2⟩
  | .locked => exact h
  | .leased .. => exact h

theorem State.memWf_spadWrite (s : State) (c off n v : Nat) (h : s.memWf = true) : (s.spadWrite c off n v).memWf = true := by
  rw [State.memWf_iff] at h ⊢
  exact ⟨h.1, Memory.wf_writeNat _ _ _ _ h.2.1, h.2.2⟩

theorem State.memWf_clearSpad (s : State) (c off n : Nat) (h : s.memWf = true) : (s.clearSpad c off n).memWf = true := by
  rw [State.memWf_iff] at h ⊢
  exact ⟨h.1, Memory.wf_filter _ _ h.2.1, h.2.2⟩

end Sys2Proof.Machine
end

