-- ==== Sys2Proof/Laws/PerInstr.lean ====
section
/-!
SUPPORT. The family "Encoding": the word that an instruction encodes to selects that instruction in the row of its opcode (R64,
R65). An event has no word.
-/
namespace Sys2Proof.Laws.Encoding

/-- The word of the instruction has its opcode, its function value and its fields. -/
def Statement (i : Instr) : Prop := ∀ w, i.encode = some w → (opcodeRow w (opOf w))[fnOf w]? = some i

theorem of_event {i : Instr} (h : i.encode = none) : Statement i := fun w hw => by rw [h] at hw; cases hw

theorem ofFS {c : FS → Instr} {op : BitVec 7} {fn : BitVec 5} {f : FS} (he : (c f).encode = some (f.toWord op fn))
    (hr : ∀ w, (opcodeRow w op.toNat)[fn.toNat]? = some (c (.ofWord w))) : Statement (c f) := by
  intro w hw
  rw [he] at hw
  cases hw
  rw [FS.opOf_toWord, FS.fnOf_toWord, hr, FS.ofWord_toWord]

theorem ofFI {c : FI → Instr} {op : BitVec 7} {fn : BitVec 5} {f : FI} (he : (c f).encode = some (f.toWord op fn))
    (hr : ∀ w, (opcodeRow w op.toNat)[fn.toNat]? = some (c (.ofWord w))) : Statement (c f) := by
  intro w hw
  rw [he] at hw
  cases hw
  rw [FI.opOf_toWord, FI.fnOf_toWord, hr, FI.ofWord_toWord]

theorem ofFB {c : FB → Instr} {op : BitVec 7} {fn : BitVec 5} {f : FB} (he : (c f).encode = some (f.toWord op fn))
    (hr : ∀ w, (opcodeRow w op.toNat)[fn.toNat]? = some (c (.ofWord w))) : Statement (c f) := by
  intro w hw
  rw [he] at hw
  cases hw
  rw [FB.opOf_toWord, FB.fnOf_toWord, hr, FB.ofWord_toWord]

theorem ofFV {c : FV → Instr} {op : BitVec 7} {fn : BitVec 5} {f : FV} (he : (c f).encode = some (f.toWord op fn))
    (hr : ∀ w, (opcodeRow w op.toNat)[fn.toNat]? = some (c (.ofWord w))) : Statement (c f) := by
  intro w hw
  rw [he] at hw
  cases hw
  rw [FV.opOf_toWord, FV.fnOf_toWord, hr, FV.ofWord_toWord]

theorem ofFVS {c : FVS → Instr} {op : BitVec 7} {fn : BitVec 5} {f : FVS} (he : (c f).encode = some (f.toWord op fn))
    (hr : ∀ w, (opcodeRow w op.toNat)[fn.toNat]? = some (c (.ofWord w))) : Statement (c f) := by
  intro w hw
  rw [he] at hw
  cases hw
  rw [FVS.opOf_toWord, FVS.fnOf_toWord, hr, FVS.ofWord_toWord]

theorem ofFM {c : FM → Instr} {op : BitVec 7} {fn : BitVec 5} {f : FM} (he : (c f).encode = some (f.toWord op fn))
    (hr : ∀ w, (opcodeRow w op.toNat)[fn.toNat]? = some (c (.ofWord w))) : Statement (c f) := by
  intro w hw
  rw [he] at hw
  cases hw
  rw [FM.opOf_toWord, FM.fnOf_toWord, hr, FM.ofWord_toWord]

theorem ofFX {c : FX → Instr} {op : BitVec 7} {fn : BitVec 5} {f : FX} (he : (c f).encode = some (f.toWord op fn))
    (hr : ∀ w, (opcodeRow w op.toNat)[fn.toNat]? = some (c (.ofWord w))) : Statement (c f) := by
  intro w hw
  rw [he] at hw
  cases hw
  rw [FX.opOf_toWord, FX.fnOf_toWord, hr, FX.ofWord_toWord]

theorem ofFF {c : FF → Instr} {op : BitVec 7} {fn : BitVec 5} {f : FF} (he : (c f).encode = some (f.toWord op fn))
    (hr : ∀ w, (opcodeRow w op.toNat)[fn.toNat]? = some (c (.ofWord w))) : Statement (c f) := by
  intro w hw
  rw [he] at hw
  cases hw
  rw [FF.opOf_toWord, FF.fnOf_toWord, hr, FF.ofWord_toWord]

theorem ofFC {c : FC → Instr} {op : BitVec 7} {fn : BitVec 5} {f : FC} (he : (c f).encode = some (f.toWord op fn))
    (hr : ∀ w, (opcodeRow w op.toNat)[fn.toNat]? = some (c (.ofWord w))) : Statement (c f) := by
  intro w hw
  rw [he] at hw
  cases hw
  rw [FC.opOf_toWord, FC.fnOf_toWord, hr, FC.ofWord_toWord]

theorem ofFO {c : FO → Instr} {op : BitVec 7} {fn : BitVec 5} {f : FO} (he : (c f).encode = some (f.toWord op fn))
    (hr : ∀ w, (opcodeRow w op.toNat)[fn.toNat]? = some (c (.ofWord w))) : Statement (c f) := by
  intro w hw
  rw [he] at hw
  cases hw
  rw [FO.opOf_toWord, FO.fnOf_toWord, hr, FO.ofWord_toWord]

theorem add (f : FS) : Statement (.add f) := ofFS rfl (fun _ => rfl)
theorem sub (f : FS) : Statement (.sub f) := ofFS rfl (fun _ => rfl)
theorem mul (f : FS) : Statement (.mul f) := ofFS rfl (fun _ => rfl)
theorem mulh (f : FS) : Statement (.mulh f) := ofFS rfl (fun _ => rfl)
theorem div (f : FS) : Statement (.div f) := ofFS rfl (fun _ => rfl)
theorem divu (f : FS) : Statement (.divu f) := ofFS rfl (fun _ => rfl)
theorem rem (f : FS) : Statement (.rem f) := ofFS rfl (fun _ => rfl)
theorem remu (f : FS) : Statement (.remu f) := ofFS rfl (fun _ => rfl)
theorem and (f : FS) : Statement (.and f) := ofFS rfl (fun _ => rfl)
theorem or (f : FS) : Statement (.or f) := ofFS rfl (fun _ => rfl)
theorem xor (f : FS) : Statement (.xor f) := ofFS rfl (fun _ => rfl)
theorem sll (f : FS) : Statement (.sll f) := ofFS rfl (fun _ => rfl)
theorem srl (f : FS) : Statement (.srl f) := ofFS rfl (fun _ => rfl)
theorem sra (f : FS) : Statement (.sra f) := ofFS rfl (fun _ => rfl)
theorem slt (f : FS) : Statement (.slt f) := ofFS rfl (fun _ => rfl)
theorem sltu (f : FS) : Statement (.sltu f) := ofFS rfl (fun _ => rfl)
theorem addImm (f : FS) : Statement (.addImm f) := ofFS rfl (fun _ => rfl)
theorem andImm (f : FS) : Statement (.andImm f) := ofFS rfl (fun _ => rfl)
theorem orImm (f : FS) : Statement (.orImm f) := ofFS rfl (fun _ => rfl)
theorem xorImm (f : FS) : Statement (.xorImm f) := ofFS rfl (fun _ => rfl)
theorem sllImm (f : FS) : Statement (.sllImm f) := ofFS rfl (fun _ => rfl)
theorem srlImm (f : FS) : Statement (.srlImm f) := ofFS rfl (fun _ => rfl)
theorem sraImm (f : FS) : Statement (.sraImm f) := ofFS rfl (fun _ => rfl)
theorem sltImm (f : FS) : Statement (.sltImm f) := ofFS rfl (fun _ => rfl)
theorem li (f : FI) : Statement (.li f) := ofFI rfl (fun _ => rfl)
theorem lhi (f : FI) : Statement (.lhi f) := ofFI rfl (fun _ => rfl)
theorem clz (f : FS) : Statement (.clz f) := ofFS rfl (fun _ => rfl)
theorem ctz (f : FS) : Statement (.ctz f) := ofFS rfl (fun _ => rfl)
theorem popc (f : FS) : Statement (.popc f) := ofFS rfl (fun _ => rfl)
theorem bswap (f : FS) : Statement (.bswap f) := ofFS rfl (fun _ => rfl)
theorem lea (f : FS) : Statement (.lea f) := ofFS rfl (fun _ => rfl)
theorem leaImm (f : FS) : Statement (.leaImm f) := ofFS rfl (fun _ => rfl)
theorem pcaddr (f : FI) : Statement (.pcaddr f) := ofFI rfl (fun _ => rfl)
theorem fadd (f : FS) : Statement (.fadd f) := ofFS rfl (fun _ => rfl)
theorem fsub (f : FS) : Statement (.fsub f) := ofFS rfl (fun _ => rfl)
theorem fmul (f : FS) : Statement (.fmul f) := ofFS rfl (fun _ => rfl)
theorem fdiv (f : FS) : Statement (.fdiv f) := ofFS rfl (fun _ => rfl)
theorem ffma (f : FS) : Statement (.ffma f) := ofFS rfl (fun _ => rfl)
theorem fsqrt (f : FS) : Statement (.fsqrt f) := ofFS rfl (fun _ => rfl)
theorem fmin (f : FS) : Statement (.fmin f) := ofFS rfl (fun _ => rfl)
theorem fmax (f : FS) : Statement (.fmax f) := ofFS rfl (fun _ => rfl)
theorem feq (f : FS) : Statement (.feq f) := ofFS rfl (fun _ => rfl)
theorem flt (f : FS) : Statement (.flt f) := ofFS rfl (fun _ => rfl)
theorem fle (f : FS) : Statement (.fle f) := ofFS rfl (fun _ => rfl)
theorem fcvti (f : FS) : Statement (.fcvti f) := ofFS rfl (fun _ => rfl)
theorem ficvt (f : FS) : Statement (.ficvt f) := ofFS rfl (fun _ => rfl)
theorem fnarrow (f : FS) : Statement (.fnarrow f) := ofFS rfl (fun _ => rfl)
theorem fwiden (f : FS) : Statement (.fwiden f) := ofFS rfl (fun _ => rfl)
theorem vbcast (f : FVS) : Statement (.vbcast f) := ofFVS rfl (fun _ => rfl)
theorem vins (f : FVS) : Statement (.vins f) := ofFVS rfl (fun _ => rfl)
theorem mput (f : FVS) : Statement (.mput f) := ofFVS rfl (fun _ => rfl)
theorem vget (f : FI) : Statement (.vget f) := ofFI rfl (fun _ => rfl)
theorem mget (f : FI) : Statement (.mget f) := ofFI rfl (fun _ => rfl)
theorem ldI8 (f : FS) : Statement (.ldI8 f) := ofFS rfl (fun _ => rfl)
theorem ldI16 (f : FS) : Statement (.ldI16 f) := ofFS rfl (fun _ => rfl)
theorem ldI32 (f : FS) : Statement (.ldI32 f) := ofFS rfl (fun _ => rfl)
theorem ldI64 (f : FS) : Statement (.ldI64 f) := ofFS rfl (fun _ => rfl)
theorem ldN8 (f : FS) : Statement (.ldN8 f) := ofFS rfl (fun _ => rfl)
theorem ldN16 (f : FS) : Statement (.ldN16 f) := ofFS rfl (fun _ => rfl)
theorem ldN32 (f : FS) : Statement (.ldN32 f) := ofFS rfl (fun _ => rfl)
theorem stN8 (f : FS) : Statement (.stN8 f) := ofFS rfl (fun _ => rfl)
theorem stN16 (f : FS) : Statement (.stN16 f) := ofFS rfl (fun _ => rfl)
theorem stN32 (f : FS) : Statement (.stN32 f) := ofFS rfl (fun _ => rfl)
theorem stN64 (f : FS) : Statement (.stN64 f) := ofFS rfl (fun _ => rfl)
theorem lds (f : FS) : Statement (.lds f) := ofFS rfl (fun _ => rfl)
theorem sts (f : FS) : Statement (.sts f) := ofFS rfl (fun _ => rfl)
theorem aadd (f : FS) : Statement (.aadd f) := ofFS rfl (fun _ => rfl)
theorem aand (f : FS) : Statement (.aand f) := ofFS rfl (fun _ => rfl)
theorem aor (f : FS) : Statement (.aor f) := ofFS rfl (fun _ => rfl)
theorem axor (f : FS) : Statement (.axor f) := ofFS rfl (fun _ => rfl)
theorem amin (f : FS) : Statement (.amin f) := ofFS rfl (fun _ => rfl)
theorem amax (f : FS) : Statement (.amax f) := ofFS rfl (fun _ => rfl)
theorem aswap (f : FS) : Statement (.aswap f) := ofFS rfl (fun _ => rfl)
theorem cas (f : FS) : Statement (.cas f) := ofFS rfl (fun _ => rfl)
theorem cflush (f : FS) : Statement (.cflush f) := ofFS rfl (fun _ => rfl)
theorem cwb (f : FS) : Statement (.cwb f) := ofFS rfl (fun _ => rfl)
theorem icinv (f : FS) : Statement (.icinv f) := ofFS rfl (fun _ => rfl)
theorem prefetch (f : FS) : Statement (.prefetch f) := ofFS rfl (fun _ => rfl)
theorem vadd (f : FV) : Statement (.vadd f) := ofFV rfl (fun _ => rfl)
theorem vsub (f : FV) : Statement (.vsub f) := ofFV rfl (fun _ => rfl)
theorem vmul (f : FV) : Statement (.vmul f) := ofFV rfl (fun _ => rfl)
theorem vmin (f : FV) : Statement (.vmin f) := ofFV rfl (fun _ => rfl)
theorem vmax (f : FV) : Statement (.vmax f) := ofFV rfl (fun _ => rfl)
theorem vand (f : FV) : Statement (.vand f) := ofFV rfl (fun _ => rfl)
theorem vor (f : FV) : Statement (.vor f) := ofFV rfl (fun _ => rfl)
theorem vxor (f : FV) : Statement (.vxor f) := ofFV rfl (fun _ => rfl)
theorem vnot (f : FV) : Statement (.vnot f) := ofFV rfl (fun _ => rfl)
theorem vsll (f : FV) : Statement (.vsll f) := ofFV rfl (fun _ => rfl)
theorem vsrl (f : FV) : Statement (.vsrl f) := ofFV rfl (fun _ => rfl)
theorem vsra (f : FV) : Statement (.vsra f) := ofFV rfl (fun _ => rfl)
theorem vaddVs (f : FVS) : Statement (.vaddVs f) := ofFVS rfl (fun _ => rfl)
theorem vsubVs (f : FVS) : Statement (.vsubVs f) := ofFVS rfl (fun _ => rfl)
theorem vmulVs (f : FVS) : Statement (.vmulVs f) := ofFVS rfl (fun _ => rfl)
theorem vminVs (f : FVS) : Statement (.vminVs f) := ofFVS rfl (fun _ => rfl)
theorem vmaxVs (f : FVS) : Statement (.vmaxVs f) := ofFVS rfl (fun _ => rfl)
theorem vandVs (f : FVS) : Statement (.vandVs f) := ofFVS rfl (fun _ => rfl)
theorem vorVs (f : FVS) : Statement (.vorVs f) := ofFVS rfl (fun _ => rfl)
theorem vxorVs (f : FVS) : Statement (.vxorVs f) := ofFVS rfl (fun _ => rfl)
theorem vsllVs (f : FVS) : Statement (.vsllVs f) := ofFVS rfl (fun _ => rfl)
theorem vsrlVs (f : FVS) : Statement (.vsrlVs f) := ofFVS rfl (fun _ => rfl)
theorem vsraVs (f : FVS) : Statement (.vsraVs f) := ofFVS rfl (fun _ => rfl)
theorem vdiv (f : FV) : Statement (.vdiv f) := ofFV rfl (fun _ => rfl)
theorem vsqrt (f : FV) : Statement (.vsqrt f) := ofFV rfl (fun _ => rfl)
theorem vabs (f : FV) : Statement (.vabs f) := ofFV rfl (fun _ => rfl)
theorem vneg (f : FV) : Statement (.vneg f) := ofFV rfl (fun _ => rfl)
theorem vffma (f : FV) : Statement (.vffma f) := ofFV rfl (fun _ => rfl)
theorem vffms (f : FV) : Statement (.vffms f) := ofFV rfl (fun _ => rfl)
theorem vffnma (f : FV) : Statement (.vffnma f) := ofFV rfl (fun _ => rfl)
theorem vffnms (f : FV) : Statement (.vffnms f) := ofFV rfl (fun _ => rfl)
theorem vmulh (f : FV) : Statement (.vmulh f) := ofFV rfl (fun _ => rfl)
theorem vabd (f : FV) : Statement (.vabd f) := ofFV rfl (fun _ => rfl)
theorem vwadd (f : FV) : Statement (.vwadd f) := ofFV rfl (fun _ => rfl)
theorem vwmul (f : FV) : Statement (.vwmul f) := ofFV rfl (fun _ => rfl)
theorem vfexp2 (f : FV) : Statement (.vfexp2 f) := ofFV rfl (fun _ => rfl)
theorem vflog2 (f : FV) : Statement (.vflog2 f) := ofFV rfl (fun _ => rfl)
theorem vfrcp (f : FV) : Statement (.vfrcp f) := ofFV rfl (fun _ => rfl)
theorem vfrsq (f : FV) : Statement (.vfrsq f) := ofFV rfl (fun _ => rfl)
theorem vftanh (f : FV) : Statement (.vftanh f) := ofFV rfl (fun _ => rfl)
theorem vdot4 (f : FV) : Statement (.vdot4 f) := ofFV rfl (fun _ => rfl)
theorem vfdot2 (f : FV) : Statement (.vfdot2 f) := ofFV rfl (fun _ => rfl)
theorem vfdot4 (f : FV) : Statement (.vfdot4 f) := ofFV rfl (fun _ => rfl)
theorem vid (f : FV) : Statement (.vid f) := ofFV rfl (fun _ => rfl)
theorem viota (f : FV) : Statement (.viota f) := ofFV rfl (fun _ => rfl)
theorem vmerge (f : FV) : Statement (.vmerge f) := ofFV rfl (fun _ => rfl)
theorem vmv (f : FV) : Statement (.vmv f) := ofFV rfl (fun _ => rfl)
theorem vaddImm (f : FV) : Statement (.vaddImm f) := ofFV rfl (fun _ => rfl)
theorem vandImm (f : FV) : Statement (.vandImm f) := ofFV rfl (fun _ => rfl)
theorem vsllImm (f : FV) : Statement (.vsllImm f) := ofFV rfl (fun _ => rfl)
theorem vsrlImm (f : FV) : Statement (.vsrlImm f) := ofFV rfl (fun _ => rfl)
theorem vsraImm (f : FV) : Statement (.vsraImm f) := ofFV rfl (fun _ => rfl)
theorem vclz (f : FV) : Statement (.vclz f) := ofFV rfl (fun _ => rfl)
theorem vctz (f : FV) : Statement (.vctz f) := ofFV rfl (fun _ => rfl)
theorem vpopc (f : FV) : Statement (.vpopc f) := ofFV rfl (fun _ => rfl)
theorem vfsgnj (f : FV) : Statement (.vfsgnj f) := ofFV rfl (fun _ => rfl)
theorem vfround (f : FV) : Statement (.vfround f) := ofFV rfl (fun _ => rfl)
theorem vcvt (f : FV) : Statement (.vcvt f) := ofFV rfl (fun _ => rfl)
theorem vwcvt (f : FV) : Statement (.vwcvt f) := ofFV rfl (fun _ => rfl)
theorem vncvt (f : FV) : Statement (.vncvt f) := ofFV rfl (fun _ => rfl)
theorem vqscale (f : FV) : Statement (.vqscale f) := ofFV rfl (fun _ => rfl)
theorem vqapply (f : FV) : Statement (.vqapply f) := ofFV rfl (fun _ => rfl)
theorem vdqapply (f : FV) : Statement (.vdqapply f) := ofFV rfl (fun _ => rfl)
theorem vcmpeq (f : FV) : Statement (.vcmpeq f) := ofFV rfl (fun _ => rfl)
theorem vcmpne (f : FV) : Statement (.vcmpne f) := ofFV rfl (fun _ => rfl)
theorem vcmplt (f : FV) : Statement (.vcmplt f) := ofFV rfl (fun _ => rfl)
theorem vcmple (f : FV) : Statement (.vcmple f) := ofFV rfl (fun _ => rfl)
theorem vcmpun (f : FV) : Statement (.vcmpun f) := ofFV rfl (fun _ => rfl)
theorem mand (f : FV) : Statement (.mand f) := ofFV rfl (fun _ => rfl)
theorem mor (f : FV) : Statement (.mor f) := ofFV rfl (fun _ => rfl)
theorem mxor (f : FV) : Statement (.mxor f) := ofFV rfl (fun _ => rfl)
theorem mandn (f : FV) : Statement (.mandn f) := ofFV rfl (fun _ => rfl)
theorem mnot (f : FV) : Statement (.mnot f) := ofFV rfl (fun _ => rfl)
theorem msbf (f : FVS) : Statement (.msbf f) := ofFVS rfl (fun _ => rfl)
theorem msif (f : FVS) : Statement (.msif f) := ofFVS rfl (fun _ => rfl)
theorem msof (f : FVS) : Statement (.msof f) := ofFVS rfl (fun _ => rfl)
theorem mfirst (f : FVS) : Statement (.mfirst f) := ofFVS rfl (fun _ => rfl)
theorem mpopc (f : FVS) : Statement (.mpopc f) := ofFVS rfl (fun _ => rfl)
theorem vsetvl (f : FI) : Statement (.vsetvl f) := ofFI rfl (fun _ => rfl)
theorem vbpack (f : FV) : Statement (.vbpack f) := ofFV rfl (fun _ => rfl)
theorem vbunpack (f : FV) : Statement (.vbunpack f) := ofFV rfl (fun _ => rfl)
theorem vfclass (f : FV) : Statement (.vfclass f) := ofFV rfl (fun _ => rfl)
theorem vperm (f : FV) : Statement (.vperm f) := ofFV rfl (fun _ => rfl)
theorem vrev (f : FV) : Statement (.vrev f) := ofFV rfl (fun _ => rfl)
theorem vslideup (f : FVS) : Statement (.vslideup f) := ofFVS rfl (fun _ => rfl)
theorem vslidedn (f : FVS) : Statement (.vslidedn f) := ofFVS rfl (fun _ => rfl)
theorem vslide1up (f : FVS) : Statement (.vslide1up f) := ofFVS rfl (fun _ => rfl)
theorem vslide1dn (f : FVS) : Statement (.vslide1dn f) := ofFVS rfl (fun _ => rfl)
theorem vqx (f : FV) : Statement (.vqx f) := ofFV rfl (fun _ => rfl)
theorem vqy (f : FV) : Statement (.vqy f) := ofFV rfl (fun _ => rfl)
theorem vqd (f : FV) : Statement (.vqd f) := ofFV rfl (fun _ => rfl)
theorem vqbc (f : FV) : Statement (.vqbc f) := ofFV rfl (fun _ => rfl)
theorem vredsum (f : FVS) : Statement (.vredsum f) := ofFVS rfl (fun _ => rfl)
theorem vredmin (f : FVS) : Statement (.vredmin f) := ofFVS rfl (fun _ => rfl)
theorem vredmax (f : FVS) : Statement (.vredmax f) := ofFVS rfl (fun _ => rfl)
theorem vredand (f : FVS) : Statement (.vredand f) := ofFVS rfl (fun _ => rfl)
theorem vredor (f : FVS) : Statement (.vredor f) := ofFVS rfl (fun _ => rfl)
theorem vredxor (f : FVS) : Statement (.vredxor f) := ofFVS rfl (fun _ => rfl)
theorem vsegscanAdd (f : FV) : Statement (.vsegscanAdd f) := ofFV rfl (fun _ => rfl)
theorem vsegscanMin (f : FV) : Statement (.vsegscanMin f) := ofFV rfl (fun _ => rfl)
theorem vsegscanMax (f : FV) : Statement (.vsegscanMax f) := ofFV rfl (fun _ => rfl)
theorem vsegredAdd (f : FV) : Statement (.vsegredAdd f) := ofFV rfl (fun _ => rfl)
theorem vsegredMin (f : FV) : Statement (.vsegredMin f) := ofFV rfl (fun _ => rfl)
theorem vsegredMax (f : FV) : Statement (.vsegredMax f) := ofFV rfl (fun _ => rfl)
theorem vcompress (f : FV) : Statement (.vcompress f) := ofFV rfl (fun _ => rfl)
theorem vexpand (f : FV) : Statement (.vexpand f) := ofFV rfl (fun _ => rfl)
theorem vld (f : FM) : Statement (.vld f) := ofFM rfl (fun _ => rfl)
theorem vst (f : FM) : Statement (.vst f) := ofFM rfl (fun _ => rfl)
theorem vlds (f : FM) : Statement (.vlds f) := ofFM rfl (fun _ => rfl)
theorem vsts (f : FM) : Statement (.vsts f) := ofFM rfl (fun _ => rfl)
theorem vldp (f : FM) : Statement (.vldp f) := ofFM rfl (fun _ => rfl)
theorem vstp (f : FM) : Statement (.vstp f) := ofFM rfl (fun _ => rfl)
theorem vaadd (f : FM) : Statement (.vaadd f) := ofFM rfl (fun _ => rfl)
theorem vafadd (f : FM) : Statement (.vafadd f) := ofFM rfl (fun _ => rfl)
theorem vaand (f : FM) : Statement (.vaand f) := ofFM rfl (fun _ => rfl)
theorem vaor (f : FM) : Statement (.vaor f) := ofFM rfl (fun _ => rfl)
theorem vaxor (f : FM) : Statement (.vaxor f) := ofFM rfl (fun _ => rfl)
theorem vamin (f : FM) : Statement (.vamin f) := ofFM rfl (fun _ => rfl)
theorem vamax (f : FM) : Statement (.vamax f) := ofFM rfl (fun _ => rfl)
theorem vaswap (f : FM) : Statement (.vaswap f) := ofFM rfl (fun _ => rfl)
theorem vacas (f : FM) : Statement (.vacas f) := ofFM rfl (fun _ => rfl)
theorem vprefetch (f : FM) : Statement (.vprefetch f) := ofFM rfl (fun _ => rfl)
theorem vcflush (f : FM) : Statement (.vcflush f) := ofFM rfl (fun _ => rfl)
theorem vcwb (f : FM) : Statement (.vcwb f) := ofFM rfl (fun _ => rfl)
theorem rld (f : FM) : Statement (.rld f) := ofFM rfl (fun _ => rfl)
theorem rst (f : FM) : Statement (.rst f) := ofFM rfl (fun _ => rfl)
theorem raadd (f : FM) : Statement (.raadd f) := ofFM rfl (fun _ => rfl)
theorem rafadd (f : FM) : Statement (.rafadd f) := ofFM rfl (fun _ => rfl)
theorem raor (f : FM) : Statement (.raor f) := ofFM rfl (fun _ => rfl)
theorem ramin (f : FM) : Statement (.ramin f) := ofFM rfl (fun _ => rfl)
theorem ramax (f : FM) : Statement (.ramax f) := ofFM rfl (fun _ => rfl)
theorem raswap (f : FM) : Statement (.raswap f) := ofFM rfl (fun _ => rfl)
theorem rcas (f : FM) : Statement (.rcas f) := ofFM rfl (fun _ => rfl)
theorem map (f : FF) : Statement (.map f) := ofFF rfl (fun _ => rfl)
theorem zip (f : FF) : Statement (.zip f) := ofFF rfl (fun _ => rfl)
theorem reduce (f : FF) : Statement (.reduce f) := ofFF rfl (fun _ => rfl)
theorem scan (f : FF) : Statement (.scan f) := ofFF rfl (fun _ => rfl)
theorem scanX (f : FF) : Statement (.scanX f) := ofFF rfl (fun _ => rfl)
theorem stencil (f : FF) : Statement (.stencil f) := ofFF rfl (fun _ => rfl)
theorem gapply (f : FF) : Statement (.gapply f) := ofFF rfl (fun _ => rfl)
theorem mxmul (f : FX) : Statement (.mxmul f) := ofFX rfl (fun _ => rfl)
theorem mxmulZ (f : FX) : Statement (.mxmulZ f) := ofFX rfl (fun _ => rfl)
theorem mxbp (f : FX) : Statement (.mxbp f) := ofFX rfl (fun _ => rfl)
theorem mxbpZ (f : FX) : Statement (.mxbpZ f) := ofFX rfl (fun _ => rfl)
theorem mxext (f : FX) : Statement (.mxext f) := ofFX rfl (fun _ => rfl)
theorem mxmovIn (f : FX) : Statement (.mxmovIn f) := ofFX rfl (fun _ => rfl)
theorem mxmovOut (f : FX) : Statement (.mxmovOut f) := ofFX rfl (fun _ => rfl)
theorem mxclr (f : FX) : Statement (.mxclr f) := ofFX rfl (fun _ => rfl)
theorem vrank (f : FV) : Statement (.vrank f) := ofFV rfl (fun _ => rfl)
theorem vrankMag (f : FV) : Statement (.vrankMag f) := ofFV rfl (fun _ => rfl)
theorem vrkmerge (f : FV) : Statement (.vrkmerge f) := ofFV rfl (fun _ => rfl)
theorem vrkpack (f : FV) : Statement (.vrkpack f) := ofFV rfl (fun _ => rfl)
theorem rkacc (f : FX) : Statement (.rkacc f) := ofFX rfl (fun _ => rfl)
theorem unrank (f : FV) : Statement (.unrank f) := ofFV rfl (fun _ => rfl)
theorem ldattAtt (f : FI) : Statement (.ldattAtt f) := ofFI rfl (fun _ => rfl)
theorem ldattRec (f : FI) : Statement (.ldattRec f) := ofFI rfl (fun _ => rfl)
theorem copy (f : FC) : Statement (.copy f) := ofFC rfl (fun _ => rfl)
theorem tcopy (f : FC) : Statement (.tcopy f) := ofFC rfl (fun _ => rfl)
theorem coll (f : FC) : Statement (.coll f) := ofFC rfl (fun _ => rfl)
theorem setsr (f : FI) : Statement (.setsr f) := ofFI rfl (fun _ => rfl)
theorem nop (f : FO) : Statement (.nop f) := ofFO rfl (fun _ => rfl)
theorem br (f : FB) : Statement (.br f) := ofFB rfl (fun _ => rfl)
theorem call (f : FB) : Statement (.call f) := ofFB rfl (fun _ => rfl)
theorem jr (f : FS) : Statement (.jr f) := ofFS rfl (fun _ => rfl)
theorem waitcLd (f : FS) : Statement (.waitcLd f) := ofFS rfl (fun _ => rfl)
theorem waitcSt (f : FS) : Statement (.waitcSt f) := ofFS rfl (fun _ => rfl)
theorem waitcSp (f : FS) : Statement (.waitcSp f) := ofFS rfl (fun _ => rfl)
theorem waitcCp (f : FS) : Statement (.waitcCp f) := ofFS rfl (fun _ => rfl)
theorem waitcMx (f : FS) : Statement (.waitcMx f) := ofFS rfl (fun _ => rfl)
theorem waitcFb (f : FS) : Statement (.waitcFb f) := ofFS rfl (fun _ => rfl)
theorem yield (f : FO) : Statement (.yield f) := ofFO rfl (fun _ => rfl)
theorem endGroup (f : FO) : Statement (.endGroup f) := ofFO rfl (fun _ => rfl)
theorem vdrain (f : FO) : Statement (.vdrain f) := ofFO rfl (fun _ => rfl)
theorem tierq (f : FS) : Statement (.tierq f) := ofFS rfl (fun _ => rfl)
theorem launch (f : FC) : Statement (.launch f) := ofFC rfl (fun _ => rfl)
theorem ctradd (f : FC) : Statement (.ctradd f) := ofFC rfl (fun _ => rfl)
theorem ctrwait (f : FC) : Statement (.ctrwait f) := ofFC rfl (fun _ => rfl)
theorem ctrset (f : FC) : Statement (.ctrset f) := ofFC rfl (fun _ => rfl)
theorem pmigrate (f : FC) : Statement (.pmigrate f) := ofFC rfl (fun _ => rfl)
theorem ckpt (f : FC) : Statement (.ckpt f) := ofFC rfl (fun _ => rfl)
theorem fence (f : FC) : Statement (.fence f) := ofFC rfl (fun _ => rfl)
theorem bar (f : FC) : Statement (.bar f) := ofFC rfl (fun _ => rfl)
theorem gbar (f : FC) : Statement (.gbar f) := ofFC rfl (fun _ => rfl)
theorem fbar (f : FS) : Statement (.fbar f) := ofFS rfl (fun _ => rfl)
theorem mwait (f : FS) : Statement (.mwait f) := ofFS rfl (fun _ => rfl)
theorem trap (f : FI) : Statement (.trap f) := ofFI rfl (fun _ => rfl)
theorem eret (f : FO) : Statement (.eret f) := ofFO rfl (fun _ => rfl)
theorem getsr (f : FI) : Statement (.getsr f) := ofFI rfl (fun _ => rfl)
theorem getcap (f : FI) : Statement (.getcap f) := ofFI rfl (fun _ => rfl)
theorem moncfg (f : FS) : Statement (.moncfg f) := ofFS rfl (fun _ => rfl)
theorem monread (f : FS) : Statement (.monread f) := ofFS rfl (fun _ => rfl)
theorem lexport (f : FS) : Statement (.lexport f) := ofFS rfl (fun _ => rfl)
theorem lmap (f : FS) : Statement (.lmap f) := ofFS rfl (fun _ => rfl)
theorem lreclaim (f : FS) : Statement (.lreclaim f) := ofFS rfl (fun _ => rfl)
theorem lack (f : FS) : Statement (.lack f) := ofFS rfl (fun _ => rfl)
theorem ctxsave (f : FS) : Statement (.ctxsave f) := ofFS rfl (fun _ => rfl)
theorem ctxload (f : FS) : Statement (.ctxload f) := ofFS rfl (fun _ => rfl)
theorem scrub (f : FS) : Statement (.scrub f) := ofFS rfl (fun _ => rfl)
theorem clauseFetch (core : Nat) : Statement (.clauseFetch core) := of_event rfl
theorem fetchStarvation (core : Nat) : Statement (.fetchStarvation core) := of_event rfl
theorem yieldExpire (gtag : Nat) : Statement (.yieldExpire gtag) := of_event rfl
theorem vectorIssue (core : Nat) : Statement (.vectorIssue core) := of_event rfl
theorem commit (gtag : Nat) : Statement (.commit gtag) := of_event rfl
theorem daybreakProbe (gtag : Nat) : Statement (.daybreakProbe gtag) := of_event rfl
theorem takeTrap (gtag : Nat) : Statement (.takeTrap gtag) := of_event rfl
theorem scalarLoadReturn (gtag : Nat) : Statement (.scalarLoadReturn gtag) := of_event rfl
theorem loadReturn (gtag : Nat) : Statement (.loadReturn gtag) := of_event rfl
theorem storeBufferPerform (gtag : Nat) : Statement (.storeBufferPerform gtag) := of_event rfl
theorem atomicPerform (gtag : Nat) : Statement (.atomicPerform gtag) := of_event rfl
theorem reductionComplete (gtag : Nat) : Statement (.reductionComplete gtag) := of_event rfl
theorem formCheck (gtag : Nat) : Statement (.formCheck gtag) := of_event rfl
theorem elementGroupProbe (gtag : Nat) : Statement (.elementGroupProbe gtag) := of_event rfl
theorem elementGroupCommit (gtag : Nat) : Statement (.elementGroupCommit gtag) := of_event rfl
theorem formComplete (gtag : Nat) : Statement (.formComplete gtag) := of_event rfl
theorem reservationEnter (gtag : Nat) : Statement (.reservationEnter gtag) := of_event rfl
theorem tileFetch (cluster : Nat) : Statement (.tileFetch cluster) := of_event rfl
theorem matrixGrant (cluster : Nat) : Statement (.matrixGrant cluster) := of_event rfl
theorem matrixPassEnd (cluster : Nat) : Statement (.matrixPassEnd cluster) := of_event rfl
theorem copyPostAccept (core : Nat) : Statement (.copyPostAccept core) := of_event rfl
theorem copyComplete (core queue : Nat) : Statement (.copyComplete core queue) := of_event rfl
theorem copyfault (core queue bytes : Nat) : Statement (.copyfault core queue bytes) := of_event rfl
theorem tcopyFire (core : Nat) : Statement (.tcopyFire core) := of_event rfl
theorem ctrwaitReread (gtag : Nat) : Statement (.ctrwaitReread gtag) := of_event rfl
theorem mwaitReread (gtag : Nat) : Statement (.mwaitReread gtag) := of_event rfl
theorem barRelease (launch scope unit number : Nat) : Statement (.barRelease launch scope unit number) := of_event rfl
theorem gbarRelease (launch : Nat) : Statement (.gbarRelease launch) := of_event rfl
theorem wptrWrite (queue : Nat) (value : BitVec 64) : Statement (.wptrWrite queue value) := of_event rfl
theorem qreset (queue : Nat) : Statement (.qreset queue) := of_event rfl
theorem recordFetch (queue : Nat) : Statement (.recordFetch queue) := of_event rfl
theorem recordArrival (queue : Nat) : Statement (.recordArrival queue) := of_event rfl
theorem waitCounterReread (queue : Nat) : Statement (.waitCounterReread queue) := of_event rfl
theorem admission (die : Nat) : Statement (.admission die) := of_event rfl
theorem taskPlace (die : Nat) : Statement (.taskPlace die) := of_event rfl
theorem priorityPromotion (launch ordinal : Nat) : Statement (.priorityPromotion launch ordinal) := of_event rfl
theorem groupHalt (gtag : Nat) : Statement (.groupHalt gtag) := of_event rfl
theorem saveComplete (gtag : Nat) : Statement (.saveComplete gtag) := of_event rfl
theorem taskRetire (gtag : Nat) : Statement (.taskRetire gtag) := of_event rfl
theorem scrubComplete (target : Nat) : Statement (.scrubComplete target) := of_event rfl
theorem launchRetire (launch : Nat) : Statement (.launchRetire launch) := of_event rfl
theorem pcoreWrite (core : Nat) (value : BitVec 8) : Statement (.pcoreWrite core value) := of_event rfl
theorem tlbInvalidate (value : BitVec 64) : Statement (.tlbInvalidate value) := of_event rfl
theorem invalidationComplete : Statement (.invalidationComplete) := of_event rfl
theorem atsTranslationResponse (answer : HostAnswer) : Statement (.atsTranslationResponse answer) := of_event rfl
theorem pageRequestResponse (answer : HostAnswer) : Statement (.pageRequestResponse answer) := of_event rfl
theorem migrationUnitCopy (record : Nat) : Statement (.migrationUnitCopy record) := of_event rfl
theorem migrationStall (record : Nat) : Statement (.migrationStall record) := of_event rfl
theorem congestionPublish (die occupancy : Nat) : Statement (.congestionPublish die occupancy) := of_event rfl
theorem bucketRefill (die : Nat) : Statement (.bucketRefill die) := of_event rfl
theorem flitSlotGrant (port : Nat) : Statement (.flitSlotGrant port) := of_event rfl
theorem reserveTokenRefill (port : Nat) : Statement (.reserveTokenRefill port) := of_event rfl
theorem remoteRequest (packet : Packet) : Statement (.remoteRequest packet) := of_event rfl
theorem remoteResponse (packet : Packet) : Statement (.remoteResponse packet) := of_event rfl
theorem requestTimeout (dest seq : Nat) : Statement (.requestTimeout dest seq) := of_event rfl
theorem linkReplay (port : Nat) : Statement (.linkReplay port) := of_event rfl
theorem linkRetrain (port rate : Nat) : Statement (.linkRetrain port rate) := of_event rfl
theorem hostPostedWrite (addr : BitVec 64) (data : List (BitVec 8)) : Statement (.hostPostedWrite addr data) := of_event rfl
theorem grant (msg : LeaseMsg) : Statement (.grant msg) := of_event rfl
theorem granted (msg : LeaseMsg) : Statement (.granted msg) := of_event rfl
theorem refused (msg : LeaseMsg) : Statement (.refused msg) := of_event rfl
theorem lmapTimeout (lease : Nat) : Statement (.lmapTimeout lease) := of_event rfl
theorem notice (msg : LeaseMsg) : Statement (.notice msg) := of_event rfl
theorem leaseReturn (msg : LeaseMsg) : Statement (.leaseReturn msg) := of_event rfl
theorem leaseDone (msg : LeaseMsg) : Statement (.leaseDone msg) := of_event rfl
theorem revoke (msg : LeaseMsg) : Statement (.revoke msg) := of_event rfl
theorem lenderDeadline (lease : Nat) : Statement (.lenderDeadline lease) := of_event rfl
theorem borrowerDeadline (lease : Nat) : Statement (.borrowerDeadline lease) := of_event rfl
theorem checkpointData (data : CkptData) : Statement (.checkpointData data) := of_event rfl
theorem ckptComplete : Statement (.ckptComplete) := of_event rfl
theorem collSign (die : Nat) : Statement (.collSign die) := of_event rfl
theorem signature (msg : CollMsg) : Statement (.signature msg) := of_event rfl
theorem go (msg : CollMsg) : Statement (.go msg) := of_event rfl
theorem abort (msg : CollMsg) : Statement (.abort msg) := of_event rfl
theorem sent (msg : CollMsg) : Statement (.sent msg) := of_event rfl
theorem collectiveDone (msg : CollMsg) : Statement (.collectiveDone msg) := of_event rfl
theorem coordinatorTimeout (collid instNo : Nat) : Statement (.coordinatorTimeout collid instNo) := of_event rfl
theorem collTransfer (t : Transfer) : Statement (.collTransfer t) := of_event rfl
theorem switchCombine (a b : Transfer) : Statement (.switchCombine a b) := of_event rfl
theorem resume (value : BitVec 64) : Statement (.resume value) := of_event rfl
theorem terminate (value : BitVec 64) : Statement (.terminate value) := of_event rfl
theorem fqridxWrite (part : Nat) (value : BitVec 64) : Statement (.fqridxWrite part value) := of_event rfl
theorem eqridxWrite (part : Nat) (value : BitVec 64) : Statement (.eqridxWrite part value) := of_event rfl
theorem eqovflRead (part : Nat) : Statement (.eqovflRead part) := of_event rfl
theorem teardown (value : BitVec 64) : Statement (.teardown value) := of_event rfl
theorem teardownDone : Statement (.teardownDone) := of_event rfl
theorem auditAppend (kind : Nat) (data : List (BitVec 8)) : Statement (.auditAppend kind data) := of_event rfl
theorem auditExport : Statement (.auditExport) := of_event rfl
theorem registerWrite (bar offset : Nat) (value : BitVec 64) : Statement (.registerWrite bar offset value) := of_event rfl
theorem deviceReset : Statement (.deviceReset) := of_event rfl
theorem measuredBoot (image : List (BitVec 8)) : Statement (.measuredBoot image) := of_event rfl
theorem getVersion (request : List (BitVec 8)) : Statement (.getVersion request) := of_event rfl
theorem getCapabilities (request : List (BitVec 8)) : Statement (.getCapabilities request) := of_event rfl
theorem negotiateAlgorithms (request : List (BitVec 8)) : Statement (.negotiateAlgorithms request) := of_event rfl
theorem getDigests (request : List (BitVec 8)) : Statement (.getDigests request) := of_event rfl
theorem getCertificate (request : List (BitVec 8)) : Statement (.getCertificate request) := of_event rfl
theorem challenge (request : List (BitVec 8)) : Statement (.challenge request) := of_event rfl
theorem getMeasurements (request : List (BitVec 8)) : Statement (.getMeasurements request) := of_event rfl
theorem softError (gtag structure_ : Nat) : Statement (.softError gtag structure_) := of_event rfl
theorem eccCorrected (die : Nat) : Statement (.eccCorrected die) := of_event rfl
theorem monitorSample (die unit : Nat) (value : BitVec 64) : Statement (.monitorSample die unit value) := of_event rfl
theorem fuseWriteBackComplete (cluster : Nat) : Statement (.fuseWriteBackComplete cluster) := of_event rfl
theorem fqbaseWrite (part : Nat) (value : BitVec 64) : Statement (.fqbaseWrite part value) := of_event rfl
theorem msiXUnmask (vector : Nat) : Statement (.msiXUnmask vector) := of_event rfl
theorem vectorStorePerformed (gtag : Nat) : Statement (.vectorStorePerformed gtag) := of_event rfl
theorem peerScratchpadReturn (gtag : Nat) : Statement (.peerScratchpadReturn gtag) := of_event rfl

end Sys2Proof.Laws.Encoding
end

