-- ==== Sys2Proof/Laws/Queue.lean ====
section
/-!
SUPPORT. What issuing a vector-side word can do (R137-R140): it takes its entry of the vector queue.
-/
namespace Sys2Proof.Machine

open Safety

/-- A permission given changes nothing but the core's list. -/
theorem grantPermission_cores (s : State) (tag : Nat) (a b : Grp) : ∃ c, grantPermission s tag a b = { s with cores := c } := by
  unfold grantPermission
  dsimp only
  split
  · exact ⟨s.cores, rfl⟩
  · exact ⟨_, rfl⟩

/-- Each flag rises by as often as it is named (R48). -/
theorem Grp.raiseFlags_flag (g : Grp) (fs : List Nat) (k : Nat) : (g.raiseFlags fs).flag k = g.flag k + fs.count k := by
  unfold Grp.raiseFlags Grp.flag
  dsimp only
  induction fs generalizing g with
  | nil => simp
  | cons a t ih =>
    simp only [List.foldl_cons]
    have := ih { g with flags := FMap.set 0 g.flags a (FMap.get 0 g.flags a + 1) }
    simp only at this
    rw [this, FMap.get_set, List.count_cons]
    by_cases h : k = a
    · subst h; simp; omega
    · simp [h, Ne.symm h]

/-- A word without a wait enters the queue. -/
theorem issueVector_run {i : Instr} {n : VNeeds} {s : State} {g : Grp} (h : AtTurn s g) (hp : Passes g i)
    (hw : n.waits s s.sched.cur g = false) (hi : n.inner = none) :
    issueVector i n s =
      grantPermission (s.setGrp s.sched.cur (g.enqueue i n).advance) s.sched.cur g (g.enqueue i n).advance := by
  have hp' : g.wordTrap i.check .user false = none := hp
  unfold issueVector issueChecked
  simp only [h.1, h.2, hp', hw, hi]
  simp

/-- A word that issues by `issueVector` alone takes an entry with the values of its registers. -/
theorem issueVector_enqueues {i : Instr} {rs : List (BitVec 6)} {path : Option Path} {cf : BitVec 2} {memory : Bool}
    (hx : ∀ s, exec i s = .next (issueVector i { reads := rs, cf := cf, path := path, memory := memory } s)) :
    Enqueues i rs path cf memory := by
  intro s g ht hp hf hv hm hc hk
  have hw : VNeeds.waits { reads := rs, cf := cf, path := path, memory := memory } s s.sched.cur g = false := by
    unfold VNeeds.waits Grp.countsFull
    have h3 : ((cfFlags g.header cf.toNat).any fun f => decide (g.flag f ≥ 63)) = false := by
      simp only [List.any_eq_false, decide_eq_true_eq]; intro k h; have := hk k h; omega
    have h2 : ¬ g.vqUsed + 1 > Config.vqDepth := by unfold Config.vqDepth; omega
    have h4 : (memory && !memoryAllowed s s.sched.cur g) = false := by cases memory <;> simp_all
    simp only [hf.1, hf.2, h3, h4]
    cases path with
    | none => simp [h2]
    | some p => have := hc p rfl; simp [h2]; omega
  obtain ⟨c, hcores⟩ := grantPermission_cores
    (s.setGrp s.sched.cur (g.enqueue i { reads := rs, cf := cf, path := path, memory := memory }).advance) s.sched.cur g
    (g.enqueue i { reads := rs, cf := cf, path := path, memory := memory }).advance
  refine ⟨_, (g.enqueue i { reads := rs, cf := cf, path := path, memory := memory }).advance, g.entryOf i { reads := rs, cf := cf, path := path, memory := memory },
    (hx s).trans (congrArg Host.Outcome.next ((issueVector_run ht hp hw rfl).trans hcores)), ?_, rfl, ?_, ?_, rfl, rfl, rfl, rfl, rfl, rfl, rfl, rfl, ?_⟩
  · simp [State.setGrp, State.grp]
  · intro u hu; simp [State.setGrp, State.grp, hu]
  · simp only [Grp.advance]; split <;> cases path <;> simp [Grp.enqueue, Grp.raiseFlags, Grp.raise]
  · refine ⟨?_, ?_, ?_, ?_, ?_, ?_⟩
    · simp only [Grp.advance]; split <;> cases path <;> simp [Grp.enqueue, Grp.raiseFlags, Grp.raise]
    · simp only [Grp.advance]; split <;> cases path <;> simp [Grp.enqueue, Grp.raiseFlags, Grp.raise]
    · intro p
      simp only [Grp.advance, Grp.counter]
      split <;> cases path <;> simp [Grp.enqueue, Grp.raiseFlags, Grp.raise, List.filter_cons] <;> split <;> simp
    · intro k
      have := Grp.raiseFlags_flag g (cfFlags g.header cf.toNat) k
      simp only [Grp.advance]
      split <;> cases path <;> simpa [Grp.enqueue, Grp.raiseFlags, Grp.raise, Grp.flag, Grp.entryOf] using this
    · simp only [Grp.advance]; split <;> cases path <;> simp [Grp.enqueue, Grp.raiseFlags, Grp.raise]
    · simp only [Grp.advance]; split <;> cases path <;> simp [Bare, Grp.enqueue, Grp.raiseFlags, Grp.raise]

end Sys2Proof.Machine
end

