-- ==== Sys2Proof/Tests/Witness.lean ====
section
/-!
SUPPORT. States that meet the hypotheses of the statements: one theorem for each statement that has some, with the clauses of a
statement side by side.
-/
namespace Sys2Proof.Tests

open Machine Safety
set_option Elab.async false

/-- A group at user level with a few register values; tag 0, core 0, launch 0. -/
def g0 : Grp := { sampleGroup.withWord 0x1600000000000000 with s := [(1, 0x2000), (2, 5), (3, 0x3003), (4, 1)] }

/-- The same at supervisor level. -/
def gS : Grp := { g0 with level := .supervisor }

/-- A device with one group, and nothing else. -/
def stateOf (g : Grp) : State := { State.reset with groups := [(0, g)] }

def s0 : State := stateOf g0
def sS : State := stateOf gS

/-- A page table of partition 0 that maps the first 512 MiB onto themselves, all rights given. -/
def tables : Memory := [(0x200007, 0x80), (0x20000A, 0x30), (0x300000, 0x38), (0x300007, 0xC8)]

/-- `s` with that page table. -/
def mapped (s : State) : State := { s with mem := tables, parts := [(0, { root := 0x8000000000200000 })] }

/-- Issuing as a computation. -/
def ready (s : State) (g : Grp) (i : Instr) (rs : List (BitVec 6)) (k : Nat) (l : Level) (c : Bool) : Bool :=
  decide (s.grp s.sched.cur = some g) && decide (g.run = .running) && decide (g.wordTrap i.check l c = none) && !g.blocked
    && !g.anyPending rs && decide (g.undo.length + k ≤ Config.undoDepth)

theorem issues_of_ready {s : State} {g : Grp} {i : Instr} {rs : List (BitVec 6)} {k : Nat} {l : Level} {c : Bool}
    (h : ready s g i rs k l c = true) : Issues s g i rs k l c := by
  simp only [ready, Bool.and_eq_true, decide_eq_true_eq, Bool.not_eq_true'] at h
  obtain ⟨⟨⟨⟨⟨h1, h2⟩, h3⟩, h4⟩, h5⟩, h6⟩ := h
  exact ⟨⟨h1, h2⟩, h3, ⟨h4, h5⟩, h6⟩

theorem issues_all {s : State} {g : Grp} {is : List Instr} {rs : List (BitVec 6)} {k : Nat} {l : Level} {c : Bool}
    (h : is.all (fun i => ready s g i rs k l c) = true) : ∀ i ∈ is, Issues s g i rs k l c :=
  fun i hi => issues_of_ready (List.all_eq_true.1 h i hi)

/-- Operands: sd 3, sa 1, sb 2. -/
def fs : FS := { sd := 3, sa := 1, sb := 2, imm := 0, ext := 0, cf := 0 }

theorem witness_StepRunsTheTurn :
    g0.wordAt = some 0x1600000000000000 ∧ decodeWord 0x1600000000000000 = .ok (.nop { zero := 0, cf := 0 })
      ∧ s0.grp 0 = some g0 ∧ s0.sched.agenda = [] ∧ machineEvent s0.tick = none ∧ nextGroup s0.tick = some 0
      ∧ (Instr.commit 0).encode = none
      ∧ decodeWord 0xFE00000000000000 = .error .reservedOpcode ∧ opcodeRow 0xFE00000000000000 0x7F = []
      ∧ decodeWord 0x2430000000000000 = .error .unassignedFunction :=
  by decide +kernel

theorem witness_ScalarIntegerWords :
    (∀ i ∈ [Instr.add fs, .sub fs, .mul fs, .mulh fs, .div fs, .divu fs, .rem fs, .remu fs, .and fs, .or fs, .xor fs, .sll fs,
      .srl fs, .sra fs, .slt fs, .sltu fs], Issues s0 g0 i [1, 2, 3] 1)
    ∧ (∀ i ∈ [Instr.addImm { fs with sb := 0, imm := 63 }, .sllImm { fs with sb := 0, imm := 63 }, .clz { fs with sb := 0 },
      .leaImm { fs with sb := 0, ext := 3 }], Issues s0 g0 i [1, 3] 1)
    ∧ Issues s0 g0 (.li { sd := 3, sa := 0, imm := 7, ext := 0, cf := 0 }) [3] 1
    ∧ AtTurn s0 g0 ∧ 64 ≤ (64 : BitVec 20).toNat :=
  ⟨issues_all (by decide +kernel), issues_all (by decide +kernel), issues_of_ready (by decide +kernel), ⟨rfl, rfl⟩, by decide⟩

theorem witness_ScalarFloatWords :
    (∀ i ∈ [Instr.fadd { fs with ext := 8 }, .fsub { fs with ext := 8 }, .fmul { fs with ext := 8 }, .fdiv { fs with ext := 8 },
      .ffma { fs with ext := 8 }, .fmin { fs with ext := 8 }, .feq { fs with ext := 8 }], Issues s0 g0 i [1, 2, 3] 2)
    ∧ (∀ i ∈ [Instr.fsqrt { fs with sb := 0, ext := 8 }, .fcvti { fs with sb := 0, ext := 8 }, .ficvt { fs with sb := 0, ext := 8 }],
      Issues s0 g0 i [1, 3] 2) :=
  ⟨issues_all (by decide +kernel), issues_all (by decide +kernel)⟩

/-- The leaf that `tables` ends in. -/
def leaf0 : Leaf := { addr := some 0x300000, d0 := 0xC800000000000038, d1 := 0, level := 1 }

theorem witness_FloatRounding :
    readFloat 8 1 = .fin false 1 (-149) ∧ readFloat 10 0xFF7F = .fin true 255 120
      ∧ (readFloat 8 0x7F800001).isNan = true ∧ (readFloat 9 0x7E00).isNan = true :=
  by decide +kernel

/-- `g0` stands at the last of the two words of its clause. -/
theorem witness_ControlTransfer :
    Issues s0 g0 (.br { sa := 0, sb := 0, cond := 0, off := 0x80000000, hint := 0, cf := 0 }) []
    ∧ (∀ c ∈ [1, 2, 3, 4, 5, 6],
      Issues s0 g0 (.br { sa := 1, sb := 2, cond := c, off := 0xFFFFFFFF, hint := 0, cf := 0 }) [1, 2])
    ∧ g0.pc = g0.hdr + BitVec.ofNat 64 (8 * (g0.clause.length - 1)) ∧ 0 < g0.clause.length
    ∧ Issues s0 g0 (.call { sa := 1, sb := 0, cond := 0, off := 0x80000000, hint := 0, cf := 0 }) [1] 1
    ∧ Issues s0 g0 (.jr { fs with sd := 0, sb := 0, imm := 1 }) [1]
    ∧ Issues s0 g0 (.jr { fs with sd := 0, sb := 0, sa := 2 }) [2]
    ∧ (g0.reg 1 + 8).toNat % 8 = 0 ∧ (g0.reg 2).toNat % 8 ≠ 0 := by
  simp only [Issues, AtTurn, Passes, Free, Room]; repeat' apply And.intro
  all_goals decide +kernel

/-- `g0` with an entry of its store buffer, counted in ST. -/
def gStore : Grp :=
  { g0 with nextId := 1, stores := [{ id := 0, stamp := 0, pc := 0x1008, hdr := 0x1000, act := .invalidate }], counted := [{ id := 0, path := .st }] }
/-- `g0` with a yield that ends at cycle 0x10. -/
def gYield : Grp := { g0 with yieldUntil := 0x10 }

theorem witness_WaitsAndEnd :
    (∀ g ∈ [g0, gStore], ∀ i ∈ [Instr.waitcLd { fs with sd := 0, sb := 0, sa := 0 }, .waitcSt { fs with sd := 0, sb := 0, sa := 0 },
        .waitcSp { fs with sd := 0, sb := 0, sa := 0 }, .waitcCp { fs with sd := 0, sb := 0, sa := 0 },
        .waitcMx { fs with sd := 0, sb := 0, sa := 0 }, .waitcFb { fs with sd := 0, sb := 0, sa := 0 }],
      Issues (stateOf g) g i [0])
    ∧ g0.counter .st = 0 ∧ gStore.counter .st = 1
    ∧ Issues s0 g0 (.yield { zero := 0, cf := 0 }) []
    ∧ (stateOf gYield).grp 0 = some gYield ∧ gYield.yieldUntil ≤ ({ stateOf gYield with cycle := 16 } : State).cycle
    ∧ Issues s0 g0 (.vdrain { zero := 0, cf := 0 }) []
    ∧ (∀ g ∈ [g0, gStore], Issues (stateOf g) g (.endGroup { zero := 0, cf := 0 }) [] ∧ g.vq = []) := by
  simp only [Issues, AtTurn, Passes, Free, Room]; repeat' apply And.intro
  all_goals decide +kernel

/-! Scalar memory: address 0x2000, at the page mapped last. -/

theorem witness_TranslationFrame :
    (translate (mapped s0) 0 0x1FFFFFFF .write).1 = .ok leaf0 (.phys 0x1FFFFFFF)
    ∧ (translate (mapped s0) 0 0x20000000 .read).1 = .fault 1 := by
  decide +kernel

def word (sd sb : BitVec 6) (ext : BitVec 12) : FS := { sd := sd, sa := 1, sb := sb, imm := 0, ext := ext, cf := 0 }

/-- An access of the pieces at 0x2000. -/
def dwordAt : Access := { elem := 0, size := 8, va := 0x2000, target := .phys 0x2000 }
/-- The device once an access to 0x2000 has been translated. -/
def reached (s : State) (kind : AccessKind) : State := (translate s 0 0x2000 kind).2

/-- `g0` with s1 = 0x2003 and s4 = 1. -/
def gOdd : Grp := { g0 with s := [(1, 0x2003), (2, 5), (3, 0x3003), (4, 1)] }

theorem witness_ScalarMemoryWords :
    (∀ ext ∈ [0, 0x14], ∀ i ∈ [Instr.ldI8 (word 3 0 ext), .ldI16 (word 3 0 ext), .ldI32 (word 3 0 ext), .ldI64 (word 3 0 ext),
        .ldN8 (word 3 0 ext), .ldN16 (word 3 0 ext), .ldN32 (word 3 0 ext)], Issues (mapped s0) g0 i [1, 3] 1)
    ∧ (∀ ext ∈ [0, 0x18], ∀ i ∈ [Instr.stN8 (word 0 2 ext), .stN16 (word 0 2 ext), .stN32 (word 0 2 ext), .stN64 (word 0 2 ext)],
      Issues (mapped s0) g0 i [1, 2])
    ∧ (word 3 0 0x14).ord = 1 ∧ (word 0 2 0x18).ord = 2
    ∧ memoryAllowed (mapped s0) 0 g0 = true ∧ g0.acquiring = false ∧ g0.vq = [] ∧ g0.stores = [] ∧ g0.loads = []
    ∧ (g0.reg 1 + BitVec.ofInt 64 (0 : BitVec 20).toInt).toNat = 0x2000
    ∧ (translate (mapped s0) g0.part 0x2000 .read).1 = .ok leaf0 (.phys 0x2000)
    ∧ (translate (mapped s0) g0.part 0x2000 .write).1 = .ok leaf0 (.phys 0x2000)
    ∧ g0.flightOverlap g0.nextId dwordAt = false ∧ g0.loadOverlap g0.nextId dwordAt = false ∧ g0.quiet 1 = true
    ∧ forwardGlobal dwordAt g0.stores.reverse = .none ∧ (reached (mapped s0) .read).arrivingAt dwordAt = false
    ∧ (reached (mapped s0) .read).hasTokens g0.core 1 = true ∧ (reached (mapped s0) .write).hasTokens g0.core 1 = true := by
  simp only [Issues, AtTurn, Passes, Free, Room]; repeat' apply And.intro
  all_goals decide +kernel

/-- `g0` with s1 = 4088, the last dword of its scratchpad. -/
def gSpad : Grp := { g0 with s := [(1, 4088), (2, 5), (3, 0x3003)] }

theorem witness_ScratchpadWords :
    Issues (stateOf gSpad) gSpad (.lds (word 3 0 3)) [1, 3] 1 ∧ Issues (stateOf gSpad) gSpad (.sts (word 0 2 3)) [1, 2]
    ∧ memoryAllowed (stateOf gSpad) 0 gSpad = true ∧ gSpad.acquiring = false ∧ gSpad.vq = [] ∧ gSpad.flights = []
    ∧ gSpad.stores = [] ∧ gSpad.loads = [] ∧ gSpad.spadBase ≤ 4088 ∧ 4088 + 8 ≤ gSpad.spadBase + 4096 * gSpad.spad
    ∧ gSpad.counter .sp < 65535 := by
  simp only [Issues, AtTurn, Passes, Free, Room]; repeat' apply And.intro
  all_goals decide +kernel

theorem witness_ScalarAtomics :
    (∀ ext ∈ [2, 3, 0x6F], ∀ i ∈ [Instr.aadd (word 3 2 ext), .aand (word 3 2 ext), .aor (word 3 2 ext), .axor (word 3 2 ext),
        .amin (word 3 2 ext), .amax (word 3 2 ext), .aswap (word 3 2 ext), .cas (word 3 2 ext)],
      Issues (mapped s0) g0 i [1, 2, 3])
    ∧ (translate (mapped s0) g0.part 0x2000 .atomic).1 = .ok leaf0 (.phys 0x2000)
    ∧ g0.accessWaits dwordAt false 0 = false ∧ g0.accessWaits dwordAt true 6 = false
    ∧ (reached (mapped s0) .atomic).arrivingAt dwordAt = false ∧ (reached (mapped s0) .atomic).hasTokens g0.core 1 = true := by
  simp only [Issues, AtTurn, Passes, Free, Room]; repeat' apply And.intro
  all_goals decide +kernel

theorem witness_CacheWords :
    Issues (mapped s0) g0 (.cflush (word 0 0 0)) [1] ∧ Issues (mapped s0) g0 (.cwb (word 0 0 0)) [1]
    ∧ Issues s0 g0 (.icinv { word 0 0 0 with sa := 0 }) []
    ∧ g0.counter .st < 65535 ∧ (translate (mapped s0) g0.part 0x2000 .cache).1 = .ok leaf0 (.phys 0x2000) := by
  simp only [Issues, AtTurn, Passes, Free, Room]; repeat' apply And.intro
  all_goals decide +kernel

/-- The same device, its pages in a lease that it does not hold. -/
def leasedPages (s : State) : State :=
  { mapped s with mem := [(0x200007, 0x80), (0x20000A, 0x30), (0x300000, 0x38), (0x300004, 7), (0x300007, 0xCC)] }

theorem witness_ScalarAccessTraps :
    (∀ s ∈ [s0, leasedPages s0], ∀ i ∈ [Instr.ldI16 (word 3 0 0), .ldI64 (word 3 0 0), .stN8 (word 0 2 0), .stN64 (word 0 2 0),
        .aadd (word 3 2 2), .amin (word 3 2 3), .cas (word 3 2 3)], Issues s g0 i [1, 2, 3])
    ∧ (translate s0 g0.part 0x2000 .read).1 = .fault 1 ∧ (translate s0 g0.part 0x2000 .write).1 = .fault 1
    ∧ (translate s0 g0.part 0x2000 .atomic).1 = .fault 1
    ∧ (translate (leasedPages s0) g0.part 0x2000 .atomic).1 = .revoked 7
    ∧ (∀ i ∈ [Instr.ldI16 (word 3 0 0), .stN64 (word 0 2 0), .cas (word 3 2 3), .lds (word 3 0 1), .sts (word 0 2 3)],
      Issues (stateOf gOdd) gOdd i [1, 2, 3])
    ∧ (gOdd.reg 1).toNat % 2 ≠ 0 ∧ Issues s0 g0 (.lds (word 3 0 3)) [1, 2, 3] ∧ Issues s0 g0 (.sts (word 0 2 3)) [1, 2, 3]
    ∧ g0.spadBase + 4096 * g0.spad < 0x2000 + 8 := by
  simp only [Issues, AtTurn, Passes, Free, Room]; repeat' apply And.intro
  all_goals decide +kernel

/-! Synchronisation. -/

/-- A word of format FC with s1 and s2 in SA and SB. -/
def fc (sa sb sd : BitVec 6) (q : BitVec 4) (ord : BitVec 2) (scope : BitVec 3) : FC :=
  { sa := sa, sb := sb, sc := 0, sd := sd, tcid := 0, q := q, ord := ord, scope := scope, ext := 0, cf := 0 }

/-- A launch of one task, with the fields that a task takes from its record. -/
def launch0 : Launch :=
  { record := { entry := 0x1000, args := 0, btbase := 0, btcount := 0, vconf := 0x2020, vl := 64, spad := 1, nacc := 0, nreg := 8
                done := 0, prio := 0, cls := 1, l1fuse := false, lnr := { order := 0, levels := [{ lo := 0, hi := 1, step := 1 }] }, part := 0, home := 0
                origin := .queue 7 4 }
    total := 1 }

/-- `s0` with `l` as launch 0. -/
def launched (s : State) (l : Launch) : State := { s with launches := [(0, l)] }

/-- `g0` with s1 = `x`. -/
def gWith (x : W64) : Grp := { g0 with s := [(1, x), (2, 5), (3, 0x3003), (4, 1)] }

theorem witness_FencesAndBarriers :
    (∀ g ∈ [g0, gStore], ∀ ord ∈ [1, 2, 3], ∀ scope ∈ [0, 1, 6],
      Issues (stateOf g) g (.fence (fc 0 0 0 0 ord scope)) [])
    ∧ (∀ ord ∈ [1, 2, 3], g0.fencedBefore g0.nextId ord 6 = true)
    ∧ g0.fenced 3 1 = true ∧ g0.fenced 3 4 = true ∧ g0.quiet 6 = true
    ∧ gStore.fencedBefore gStore.nextId 2 6 = false ∧ gStore.fenced 3 6 = false
    ∧ (∀ g ∈ [gWith 0, gWith 1, gWith 16, gWith 17], Issues (stateOf g) g (.bar (fc 1 0 0 0 0 1)) [1])
    ∧ Issues (stateOf { gWith 1 with released := true }) { gWith 1 with released := true } (.bar (fc 1 0 0 0 0 1)) [1]
    ∧ arrive ((stateOf (gWith 1)).barsOf 1 0) 0 0 1 0 = some [{ launch := 0, number := 0, count := 1, arrivals := [0] }]
    ∧ takeComplete 0 0 [{ launch := 0, number := 0, count := 1, arrivals := [0] }]
      = some ({ launch := 0, number := 0, count := 1, arrivals := [0] }, [])
    ∧ (∀ l ∈ [launch0, { launch0 with gbarDone := 1 }], Issues (launched s0 l) g0 (.gbar (fc 0 0 0 0 0 4)) [] 0 .user true)
    ∧ g0.ordinal ∉ launch0.gbars
    ∧ ({ launch0 with gbars := [0] } : Launch).gbars.length + launch0.retired = launch0.total := by
  simp only [Issues, AtTurn, Passes, Free, Room]; and_intros <;> decide +kernel

/-- `g0` in a clause with the word `w`. -/
def gAt (w : W64) : Grp := { g0 with clause := [0x1000000000000000, w] }
/-- `ctrwait s3, s1, s2` and `mwait s3, s1, s2`. -/
def wCtrwait : W64 := (fc 1 2 3 0 1 6).toWord 0x64 1
def wMwait : W64 := (word 3 2 0).toWord 0x6C 0

theorem witness_CountersAndWaits :
    Issues (mapped s0) g0 (.ctradd (fc 1 2 3 0 3 6)) [1, 2, 3] 1 ∧ Issues (mapped s0) g0 (.ctrset (fc 1 2 0 0 2 6)) [1, 2]
    ∧ Issues (mapped s0) g0 (.ctrwait (fc 1 2 3 0 0 0)) [1, 2, 3] 1
    ∧ Issues (mapped s0) g0 (.mwait (word 3 2 0)) [1, 2, 3] 1 ∧ Issues (mapped s0) g0 (.mwait (word 3 2 2)) [1, 2, 3] 1
    ∧ (translate (mapped s0) g0.part 0x2000 .atomic).1 = .ok leaf0 (.phys 0x2000)
    ∧ (translate (mapped s0) g0.part 0x2000 .read).1 = .ok leaf0 (.phys 0x2000)
    ∧ g0.accessWaits dwordAt true 6 = false ∧ g0.accessWaits dwordAt false 0 = false
    ∧ (∀ kind ∈ [AccessKind.read, .write, .atomic],
      (reached (mapped s0) kind).hasTokens g0.core 1 = true ∧ (reached (mapped s0) kind).arrivingAt dwordAt = false)
    ∧ (gAt wCtrwait).wordAt = some wCtrwait ∧ decodeWord wCtrwait = .ok (.ctrwait (fc 1 2 3 0 1 6))
    ∧ (gAt wMwait).wordAt = some wMwait ∧ decodeWord wMwait = .ok (.mwait (word 3 2 0))
    ∧ (stateOf (gAt wMwait)).grp 0 = some (gAt wMwait) := by
  simp only [Issues, AtTurn, Passes, Free, Room]; and_intros <;> decide +kernel

/-- `ctrwait s3, s1, s0` and `mwait s3, s1, s0` as long as the dword is 0. -/
def wNow : W64 := (fc 1 0 3 0 0 0).toWord 0x64 1
def wEqual : W64 := (word 3 0 2).toWord 0x6C 0

/-- Waiting words that read again, of group 0, while the turn that comes is another's: the dword at 0x2000 is 0, s2 is 5. -/
theorem witness_CountersAndWaits_reread :
    (∀ g ∈ [gAt wCtrwait, gAt wNow, gAt wMwait, gAt wEqual], Drained g ∧ g.accessWaits dwordAt false 0 = false
      ∧ (translate (mapped (stateOf g)) 0 0x2000 .read).1 = .ok leaf0 (.phys 0x2000))
    ∧ ((gAt wNow).wordAt = some wNow ∧ (gAt wEqual).wordAt = some wEqual)
    ∧ (decodeWord wNow = .ok (.ctrwait (fc 1 0 3 0 0 0)) ∧ decodeWord wEqual = .ok (.mwait (word 3 0 2)))
    ∧ (Issues (mapped (stateOf (gAt wCtrwait))) (gAt wCtrwait) (.ctrwait (fc 1 2 3 0 1 6)) [1, 2, 3] 1
      ∧ Issues (mapped (stateOf (gAt wNow))) (gAt wNow) (.ctrwait (fc 1 0 3 0 0 0)) [1, 0, 3] 1)
    ∧ (Issues (mapped (stateOf (gAt wMwait))) (gAt wMwait) (.mwait (word 3 2 0)) [1, 2, 3] 1
      ∧ Issues (mapped (stateOf (gAt wEqual))) (gAt wEqual) (.mwait (word 3 0 2)) [1, 0, 3] 1)
    ∧ (Memory.readNat (reached (mapped s0) .read).mem 0x2000 8 = 0 ∧ g0.reg 2 = 5) := by
  simp only [Issues, AtTurn, Passes, Free, Room, Drained]; and_intros <;> decide +kernel

/-! Traps, state registers and monitors. -/

/-- `s` with a handler at 0x8000 for partition 0. -/
def handled (s : State) : State := { s with parts := [(0, { (s.partAt 0) with tvec := 0x8000 })] }
/-- A group in its handler. -/
def gTact : Grp := { gS with tcause := 0x8000000A }

/-- Rings of 16 records for partition 0, at 0x10000 for its traps and at 0x11000 for its events, with `n` records in each. -/
def ring (n : Nat) : State :=
  { mapped s0 with
    parts := [(0, { root := 0x8000000000200000, fqbase := 0x10004, fqwidx := n, eqbase := 0x11004, eqwidx := n }),
              (255, { eqbase := 0x12004, eqwidx := n })] }

theorem witness_TakingATrap :
    (handled s0).grp 0 = some g0 ∧ g0.vq = [] ∧ g0.undo = [] ∧ g0.tact = false ∧ ((handled s0).partAt g0.part).tvec ≠ 0
    ∧ (s0.partAt g0.part).tvec = 0 ∧ gTact.tact = true ∧ (stateOf gTact).grp 0 = some gTact
    ∧ (let room (s : State) : Bool :=
         let u := s.partAt 0
         u.waiting.isEmpty && decide (4 ≤ u.fqbase.toNat % 32) && decide (u.fqbase.toNat % 32 ≤ 16)
           && decide ((u.fqwidx + 2 ^ 32 - u.fqridx) % 2 ^ 32 < 2 ^ (u.fqbase.toNat % 32))
       room (ring 0) = true ∧ room (ring 16) = false ∧ room s0 = false)
    ∧ (translate (ring 0) 0 0x10000 .write).1 = .ok leaf0 (.phys 0x10000) := by
  and_intros <;> decide +kernel

/-- An entry of the vector queue that holds a trap. -/
def eTrap : VEntry :=
  { id := 0, pc := 0x1008, hdr := 0x1000, instr := .addImm fs, trap := some { cause := 0x02 } }

theorem witness_VectorTrapAndReturn :
    (stateOf { g0 with vq := [eTrap] }).grp 0 = some { g0 with vq := [eTrap] } ∧ eTrap.trap = some { cause := 0x02 }
    ∧ Issues s0 g0 (.trap { sd := 0, sa := 0, imm := 0xFFFF, ext := 0, cf := 0 }) [] ∧ g0.vq = [] ∧ g0.acquiring = false
    ∧ Issues (stateOf gTact) gTact (.eret { zero := 0, cf := 0 }) [] 0 .supervisor
    ∧ Issues sS gS (.eret { zero := 0, cf := 0 }) [] 0 .supervisor ∧ gTact.tact = true ∧ gS.tact = false := by
  simp only [Issues, AtTurn, Passes, Free, Room]; and_intros <;> decide +kernel

theorem witness_PrivilegedWordsTrap :
    AtTurn s0 g0 ∧ g0.level = .user ∧ g0.vq = [] :=
  ⟨⟨rfl, rfl⟩, by decide +kernel, by decide +kernel⟩

/-- `getsr s3` and `setsr` from s1 of the register `k`. -/
def sr (k : BitVec 32) (sd sa : BitVec 6) : FI := { sd := sd, sa := sa, imm := k, ext := 0, cf := 0 }
/-- A group at machine level. -/
def gM : Grp := { g0 with level := .machine }

/-- The same with a command that has GO in s1; the root that appends. -/
def gGo : Grp := { gM with s := [(1, 0x8000000000000002)] }
def appending : State := { stateOf gGo with root := { State.reset.root with busy := true, opn := 1, doing := 1 } }

theorem witness_StateRegisters :
    (∀ f ∈ [0x000, 0x001, 0x002, 0x003, 0x004, 0x005, 0x006, 0x007, 0x010, 0x011, 0x012, 0x020, 0x027, 0x030, 0x031, 0x032, 0x033,
      0x034, 0x035].map (fun k => sr k 3 0), Issues s0 g0 (.getsr f) [3] 1 .user)
    ∧ (∀ f ∈ [0x100, 0x101, 0x102, 0x103, 0x104, 0x105].map (fun k => sr k 3 0), Issues sS gS (.getsr f) [3] 1 .supervisor)
    ∧ (∀ f ∈ [0x200, 0x201, 0x202, 0x203, 0x204, 0x208, 0x20F, 0x210, 0x217].map (fun k => sr k 3 0), Issues (stateOf gM) gM (.getsr f) [3] 1 .machine)
    ∧ (∀ f ∈ [0x100, 0x101, 0x102, 0x103, 0x104, 0x105].map (fun k => sr k 0 1), Issues sS gS (.setsr f) [1] 0 .supervisor)
    ∧ (gS.reg 1).getLsbD 25 = false
    ∧ (∀ f ∈ [0x020, 0x024, 0x027].map (fun k => sr k 0 1), Issues s0 g0 (.setsr f) [1] ∧ Issues sS gS (.setsr f) [1])
    ∧ g0.level = .user ∧ gS.level ≠ .user
    ∧ (∀ f ∈ [0x202, 0x203, 0x204].map (fun k => sr k 0 1), ∀ g ∈ [gM, gGo], Issues (stateOf g) g (.setsr f) [1] 0 .machine)
    ∧ (gGo.reg 1).getLsbD 63 = true ∧ (gM.reg 1).getLsbD 63 = false ∧ (stateOf gGo).root.busy = false
    ∧ Issues appending gGo (.setsr (sr 0x202 0 1)) [1] 0 .machine ∧ appending.root.busy = true
    ∧ (∀ f ∈ [0x001, 0x004, 0x005, 0x010, 0x011, 0x012].map (fun k => sr k 0 1), Issues s0 g0 (.setsr f) [1])
    ∧ badVconf 0x2020 = false ∧ badRankcfg 0x10001 = false
    ∧ Issues s0 g0 (.getcap (sr 16 3 1)) [1, 3] 1 ∧ Issues s0 g0 (.getcap (sr 12 3 1)) [1, 3] 1
    ∧ (g0.reg 1 + BitVec.ofNat 64 16).toNat % 8 = 0 ∧ (g0.reg 1 + BitVec.ofNat 64 12).toNat % 8 ≠ 0 := by
  simp only [Issues, AtTurn, Passes, Free, Room]; and_intros <;> decide +kernel

/-- A supervisor with s1 = `x` and s2 = `y`. -/
def gArgs (x y : W64) : Grp := { gS with s := [(1, x), (2, y), (3, 7)] }
/-- An enabled unit that samples the occupancy of the queues at times of its own: SRC 2. -/
def monitored : State := s0.setMonitor 7 63 { config := 0x8000020000000000 }
/-- The device without die 7. -/
def sevenDies (g : Grp) : State := { stateOf g with dieMask := 0x7F }
/-- A unit that counts corrected errors of all partitions and cores, and one that is off. -/
def counting : State :=
  (s0.setMonitor 7 63 { config := 0x80FF0B00FFFFFFFF }).setMonitor 7 62 { config := 0x00FF0B00FFFFFFFF }

theorem witness_Monitors :
    (∀ g ∈ [gArgs 0x73F 0x8000010000000000, gArgs 0x73F 0xC000010000000000, gArgs 0x800 0x8000010000000000, gArgs 0x73F 0],
      Issues (stateOf g) g (.moncfg (word 3 2 0)) [1, 2, 3] 1 .supervisor)
    ∧ badMonitor 0xC000010000000000 = false ∧ badMonitor 0 = true
    ∧ (∀ g ∈ [gArgs 0x73F 0, gArgs 0x73F 35, gArgs 0x73F 36, gArgs 0x40 0],
      Issues (stateOf g) g (.monread (word 3 2 0)) [1, 2, 3] 1 .supervisor)
    ∧ 0x73F = 0x73F % 64 + 256 * (0x73F / 256 % 8) ∧ 0x40 ≠ 0x40 % 64 + 256 * (0x40 / 256 % 8)
    ∧ (monitored.monitor 7 63).on = true ∧ sampledByEvent (monitored.monitor 7 63).src = false ∧ bitOf monitored.dieMask 7 = true
    ∧ (∀ i ∈ [Instr.moncfg (word 3 2 0), .monread (word 3 2 0)],
      Issues (sevenDies (gArgs 0x73F 0)) (gArgs 0x73F 0) i [1, 2, 3] 1 .supervisor)
    ∧ bitOf (sevenDies (gArgs 0x73F 0)).dieMask (0x73F / 256 % 8) = false
    ∧ (let x (unit : Nat) := (counting.monitor 7 unit).config.toNat
       (x 63 / 2 ^ 63 = 1 ∧ x 63 / 2 ^ 40 % 256 = 0x0B) ∧ x 63 / 2 ^ 48 % 256 = 255 ∧ x 63 % 2 ^ 32 = 2 ^ 32 - 1 ∧ x 62 / 2 ^ 63 = 0) := by
  simp only [Issues, AtTurn, Passes, Free, Room]; and_intros <;> decide +kernel

/-! Work queues, launches, placement. -/

/-- Queue 7, ACTIVE, with a ring of 16 records of 64 bytes at 0x4000, and WPTR 5. -/
def queue7 : QueueUnit := { wptr := 5, rptr := 4, state := .active, rbase := 0x4000, log2d := 4, part := 0 }
/-- `s` with that queue, and the pages of its partition mapped. -/
def queued (s : State) : State := { mapped s with queues := [(7, queue7)] }

/-- A queue descriptor table at 0x1000: queue 0 enabled, 16 records at 0x4000; queue 1 not enabled; queue 2 not valid. -/
def described : State :=
  { State.reset with
    qdbase := 0x1000
    mem := [(0x1000, 0x04), (0x1001, 0x40), (0x100B, 0x80), (0x1010, 0x04), (0x1011, 0x40), (0x1020, 0x03), (0x102B, 0x80)] }

theorem witness_WorkQueues :
    ((queued s0).queueAt 7).wptr ≤ (20 : W64).toNat ∧ ¬ 2 ^ queue7.log2d < (20 : W64).toNat - queue7.rptr
    ∧ 2 ^ queue7.log2d < (21 : W64).toNat - queue7.rptr ∧ (4 : W64).toNat < queue7.wptr
    ∧ (∀ q < 3, namesMemory described.dieMask (0x1000 + 16 * q) = true ∧ namesMemory described.dieMask (0x1000 + 16 * q + 8) = true)
    ∧ descOk (Memory.readNat described.mem 0x1000 8) (Memory.readNat described.mem 0x1008 8) = true
    ∧ Memory.readNat described.mem 0x1008 8 / 2 ^ 31 % 2 = 1
    ∧ Memory.readNat described.mem 0x1018 8 / 2 ^ 31 % 2 = 0
    ∧ descOk (Memory.readNat described.mem 0x1020 8) (Memory.readNat described.mem 0x1028 8) = false := by
  and_intros <;> decide +kernel

/-- How a read of several dwords ends, its dwords. -/
def ReadMany.dwords : ReadMany → Option (List W64)
  | .ok _ ds => some ds
  | _ => none

/-- Resources of a record: 8 vector registers, one granule, VL 64, VCONF 0x2020. -/
def res0 : W64 := 8 + 2 ^ 9 + 64 * 2 ^ 15 + 0x2020 * 2 ^ 24
/-- A record of 64 bytes that waits for a counter, and one that breaks a rule; a record of 128 bytes that does. -/
def raw64 : List W64 := [0x1081, 0x1000, 0x2000, res0, 0, 0x3000, 7, 0]
def rawBad : List W64 := [0x1081, 0x1001, 0x2000, res0, 0, 0x3000, 7, 0]
def rawBad128 : List W64 := [0x81, 0x1000, 0, 0, res0, 0, 0, 0, 0, 0, 0, 0, 0, 0, 0, 0]

/-- A record fetched by queue 7 that waits for a counter at 0x3000 to reach 0. -/
def pending7 : PendingRec :=
  { raw := raw64, part := 0, home := 7, least := 0, origin := .queue 7 4, record := some launch0.record, waits := [(0x3000, 0)] }
def fetchedWith (ws : List (W64 × Nat)) : State := { queued s0 with fetched := [(7, { pending7 with waits := ws })] }
def fetchedState : State := fetchedWith [(0x3000, 0)]
/-- `s0` with the record at RPTR of queue 7 on its way. -/
def arrivingState : State := { mapped s0 with queues := [(7, { queue7 with fetching := true })] }

/-- How a read ends, its value. -/
def Reached.value : Reached → Option Nat
  | .ok _ v => some v
  | _ => none

theorem witness_LaunchRecords :
    (queued s0).root.failedStage = 0 ∧ queue7.state = .active ∧ queue7.fetching = false ∧ queue7.rptr < queue7.wptr
    ∧ queue7.wptr - queue7.rptr ≤ 2 ^ queue7.log2d ∧ Assoc.find? (queued s0).fetched 7 = none ∧ 7 ≠ noQueue
    ∧ ((arrivingState.queueAt 7).fetching = true ∧ Assoc.find? arrivingState.fetched 7 = none)
    ∧ ReadMany.dwords (readDwords arrivingState { unit := unitRecord, a := 7, b := 4, part := 0 } (0x4000 + BitVec.ofNat 64 (4 % 2 ^ 4 * 64)) 8)
      = some [0, 0, 0, 0, 0, 0, 0, 0]
    ∧ Assoc.find? fetchedState.fetched 7 = some pending7 ∧ pending7.record ≠ none ∧ pending7.failed = none ∧ pending7.waits = [(0x3000, 0)]
    ∧ Reached.value (readVa fetchedState pending7.agent 0x3000 8) = some 0
    ∧ (∀ v ∈ [0, 1], Reached.value (readVa (fetchedWith [(0x3000, 0), (0x3008, v)]) pending7.agent 0x3008 8) = some 0)
    ∧ raw64.length = 8 ∧ record64Ok raw64 = true ∧ rawBad.length = 8 ∧ record64Ok rawBad = false
    ∧ rawBad128.length = 16 ∧ record128Ok rawBad128 = false := by
  and_intros <;> decide +kernel

/-- A record that has passed its waits, and one that no core can take. -/
def passed7 : PendingRec := { pending7 with waits := [], home := 0, raw := [0x81, 0x1000, 0x2000, res0, 0, 0, 0, 0] }
def admitting (r : LaunchRec) : State := { queued s0 with fetched := [(7, { passed7 with record := some r })] }
/-- The record of a launch without tasks. -/
def noTasks : LaunchRec := { launch0.record with lnr := { order := 0, levels := [{ lo := 0, hi := 0, step := 1 }] } }
/-- `s0` with 64 records posted to the walker of die 0. -/
def fullSlots : State := { mapped s0 with posted := List.replicate 64 { pending7 with home := 0 } }

theorem witness_LaunchAndAdmission :
    Issues (mapped s0) g0 (.launch (fc 1 0 3 0 0 0)) [1, 3] 1
    ∧ Issues fullSlots g0 (.launch (fc 1 0 3 0 0 0)) [1, 3] 1
    ∧ Issues (stateOf gOdd) gOdd (.launch (fc 1 0 3 0 0 0)) [1, 3] 1
    ∧ (g0.reg 1).toNat % 128 = 0 ∧ (gOdd.reg 1).toNat % 128 ≠ 0 ∧ g0.quiet 4 = true
    ∧ ReadMany.dwords (readDwords (mapped s0) (g0.agent 0 0 g0.nextId g0.pc g0.hdr) 0x2000 16) = some (List.replicate 16 0)
    ∧ 64 ≤ (fullSlots.posted.filter (fun p => p.home = 0)).length
    ∧ (admitting launch0.record).root.failedStage = 0 ∧ (admitting launch0.record).walkerRoom 0 = true
    ∧ ((admitting launch0.record).fetched.filter (fun x => x.2.ready 0)).length = 1
    ∧ (admitting launch0.record).posted.filter (fun x => x.ready 0) = []
    ∧ admissible (admitting launch0.record) launch0.record = true
    ∧ admissible (admitting { launch0.record with part := 9 }) { launch0.record with part := 9 } = false
    ∧ (admissible (admitting noTasks) noTasks = true ∧ noTasks.lnr.total = 0 ∧ 0 < launch0.record.lnr.total)
    ∧ Assoc.wf (admitting noTasks).launches = true ∧ launch0.record.done = 0 ∧ passed7.done = 0 := by
  simp only [Issues, AtTurn, Passes, Free, Room]; and_intros <;> decide +kernel

/-- A device with one launch and no group. -/
def oneLaunch (l : Launch) : State := { State.reset with launches := [(0, l)] }
/-- A group saved long ago. -/
def saved0 : SavedGrp :=
  { launch := 0, ordinal := 0, part := 0, prio := 3, cls := 1, fuse := false, age := 0, area := 0x4000, slot := none, token := none
    vl := 64, nreg := 8, nacc := 0, spad := 1, since := 0, queued := true }

theorem witness_Tasks :
    (oneLaunch launch0).saved = [] ∧ launch0.record.cls = 1 ∧ launch0.suspended = false ∧ launch0.placed < launch0.total
    ∧ launch0.holds = false ∧ findRoom (oneLaunch launch0) (launch0.record.shape 0) launch0.cursor = some (0, 0, 0)
    ∧ findRoom (oneLaunch launch0) (launch0.record.shape 0) (some 0) = some (128, 0, 0)
    ∧ ({ State.reset with saved := [saved0], cycle := 2 ^ 20 } : State).saved.find? (fun v => v.launch = 0 && v.ordinal = 0) = some saved0
    ∧ saved0.cls = 1 ∧ saved0.queued = true ∧ saved0.promoted = false ∧ saved0.since + 2 ^ 20 ≤ 2 ^ 20
    ∧ ((State.reset.setCluster 255 { State.reset.clusterAt 255 with busy := true }).clusterAt 255).busy = true := by
  and_intros <;> decide +kernel

/-! Saving, retiring, scrubbing, tearing down. -/

/-- A parked group that is to be saved at 0x10000, with token 9, beside the supervisor whose turn it is. -/
def gParked : Grp := { g0 with slot := 1, run := .parked 9, token := 9, pc := 0x1000, clause := [] }
def parkedBeside (g : Grp) : State := { State.reset with groups := [(0, g), (1, gParked)] }
/-- Launch 0 has been suspended. -/
def suspended (g : Grp) : State := { stateOf g with launches := [(0, { launch0 with suspended := true })] }
/-- An area of version 1 at 0x10000 of a group that launch 0 has saved. -/
def areaState (g : Grp) : State :=
  { stateOf g with
    mem := [(0x10000, 1), (0x10001, 8), (0x10003, 2), (0x10048, 0x20), (0x10049, 0x20)], launches := [(0, launch0)]
    saved := [{ saved0 with area := 0x10000, queued := false }] }
/-- A core with no working lane. -/
def noLanes (g : Grp) : State := (stateOf g).setCore 1023 { (stateOf g).coreAt 1023 with lanes := 0 }

/-- A halted group that is to be saved. -/
def gSaving : Grp := { g0 with run := .halted, save := some { area := 0x4000, slot := none, queued := true } }
/-- The supervisor waits for the save of the group of token 9, which is in its area. -/
def savedBy (g : Grp) : State := { stateOf g with saved := [{ saved0 with area := 0x10000, token := some 9 }] }

theorem witness_SavedContexts :
    (stateOf { g0 with halt := true }).grp 0 = some { g0 with halt := true }
    ∧ ({ g0 with halt := true } : Grp).midWord (stateOf { g0 with halt := true }) 0 = false
    ∧ (gSaving.settledAll = true ∧ gSaving.copying (stateOf gSaving) = false)
    ∧ Issues (parkedBeside (gArgs 9 0x10000)) (gArgs 9 0x10000) (.ctxsave (word 3 2 0)) [1, 2, 3] 1 .supervisor
    ∧ (parkedBeside (gArgs 9 0x10000)).holderOf 9 = some (1, gParked)
    ∧ areaNames (parkedBeside (gArgs 9 0x10000)).dieMask 0x10000 gParked.areaSize = true
    ∧ (parkedBeside (gArgs 10 0x10000)).holderOf 10 = none
    ∧ (let g : Grp := { gArgs 9 0x10000 with saveWait := some 9 }
       Issues (savedBy g) g (.ctxsave (word 3 2 0)) [1, 2, 3] 1 .supervisor ∧ (savedBy g).toSave 9 = false
         ∧ (savedBy g).savedIn 9 0x10000 = true)
    ∧ (let s := savedBy (gArgs 9 0x20000)
       Issues s (gArgs 9 0x20000) (.ctxsave (word 3 2 0)) [1, 2, 3] 1 .supervisor ∧ s.holderOf 9 = none ∧ (s.savedHolder 9).isSome = true
         ∧ areaNames s.dieMask 0x20000 saved0.areaSize = true)
    ∧ (parkedBeside (gArgs 10 0x10000)).savedHolder 10 = none
    ∧ (suspended (gArgs 0x8000000000000000 0)).launchNamed 0 = some (0, { launch0 with suspended := true })
    ∧ (areaState (gArgs 0x10000 0)).launchNamed 0 ≠ none
    ∧ Issues (suspended (gArgs 0x8000000000000000 0)) (gArgs 0x8000000000000000 0) (.ctxload (word 3 0 0)) [1, 3] 1 .supervisor
    ∧ Issues (areaState (gArgs 0x10000 0)) (gArgs 0x10000 0) (.ctxload (word 3 0 0)) [1, 3] 1 .supervisor
    ∧ areaOk (areaState (gArgs 0x10000 0)) 0x10000 = true ∧ areaDword (areaState (gArgs 0x10000 0)) 0x10000 0x18 = 0
    ∧ areaDword (areaState (gArgs 0x10000 0)) 0x10000 0x20 = 0
    ∧ Issues (stateOf (gArgs 1023 0x3000)) (gArgs 1023 0x3000) (.scrub (word 3 2 0)) [1, 2, 3] 1 .supervisor
    ∧ (stateOf (gArgs 1023 0x3000)).lanes 1023 ≠ 0 ∧ ((stateOf (gArgs 1023 0x3000)).coreAt 1023).scrub = none
    ∧ Issues (noLanes (gArgs 1023 0)) (gArgs 1023 0) (.scrub (word 3 2 0)) [1, 2, 3] 1 .supervisor
    ∧ (noLanes (gArgs 1023 0)).lanes 1023 = 0
    ∧ Issues (stateOf (gArgs 1024 0)) (gArgs 1024 0) (.scrub (word 3 2 0)) [1, 2, 3] 1 .supervisor := by
  simp only [Issues, AtTurn, Passes, Free, Room]; and_intros <;> decide +kernel

/-- Launch 0, its one task placed and retired, with a completion counter at 0x3000 or none. -/
def retiring (done : W64) : Launch :=
  { launch0 with record := { launch0.record with done := done }, placed := 1, retired := 1 }
/-- Core 1023 with a context of granules 2 and 3 to scrub, or with a change of its partition waiting. -/
def releasedAt : State :=
  State.reset.setCore 1023 { State.reset.coreAt 1023 with releases := [⟨0, 0, 64, 0, 2, 2⟩] }
def changing : State := State.reset.setCore 1023 { State.reset.coreAt 1023 with pending := some 4 }

theorem witness_RetirementAndScrubbing :
    (launched (stateOf { g0 with run := .ended }) launch0).grp 0 = some { g0 with run := .ended }
    ∧ ({ g0 with run := .ended } : Grp).copying (launched (stateOf { g0 with run := .ended }) launch0) = false
    ∧ (launched (stateOf { g0 with run := .ended }) launch0).launchAt 0 = some launch0
    ∧ (retiring 0).over (oneLaunch (retiring 0)) 0 = true ∧ (retiring 0).record.done = 0
    ∧ (retiring 0x3000).over (mapped (oneLaunch (retiring 0x3000))) 0 = true ∧ (retiring 0x3000).record.done ≠ 0
    ∧ (translate (mapped (oneLaunch (retiring 0x3000))) 0 0x3000 .atomic).1 = .ok leaf0 (.phys 0x3000)
    ∧ (releasedAt.coreAt 1023).releases ≠ [] ∧ (releasedAt.coreAt 1023).pending = none ∧ (releasedAt.coreAt 1023).scrub = none
    ∧ (changing.coreAt 1023).releases = [] ∧ (changing.coreAt 1023).pending = some 4 ∧ (changing.coreAt 1023).scrub = none
    ∧ changing.groupsOf 1023 = [] ∧ changing.reservedAny 1023 = false := by
  and_intros <;> decide +kernel

/-- A list of one frame at 0x4000, 0x200000 of near memory; its teardown under way. -/
def toTear : State := { State.reset with teardown := { State.reset.teardown with flist := 0x4000 }, mem := [(0x4002, 0x20)] }
def tearing : State := { toTear with teardown := { toTear.teardown with part := 9, nfr := 1, busy := true, frames := [2 ^ 48 + 0x200000] } }

/-- The parked group, once its save has been asked for. -/
def parkedToSave : State :=
  { parkedBeside g0 with groups := [(0, g0), (1, { gParked with save := some { area := 0x10000, slot := none, queued := false } })] }

theorem witness_ResumeTerminateTeardown :
    (∀ p ∈ [0, 255], ((ring 0).partAt p).events = [] ∧ ((ring 16).partAt p).events = [])
    ∧ (let room (s : State) (p : Nat) : Bool :=
         let u := s.partAt p
         let n := u.eqbase.toNat % 32
         decide (4 ≤ n) && decide (n ≤ 16) && decide ((u.eqwidx + 2 ^ 32 - u.eqridx) % 2 ^ 32 < 2 ^ n)
       (∀ p ∈ [0, 255], room (ring 0) p = true ∧ room (ring 16) p = false ∧ room s0 p = false))
    ∧ (translate (ring 0) 0 0x11000 .write).1 = .ok leaf0 (.phys 0x11000)
    ∧ (translate { ring 0 with mem := [] } 0 0x11000 .write).1 = .fault 1
    ∧ (parkedBeside g0).holderOf ((9 : W64).toNat % 2 ^ 32) = some (1, gParked) ∧ gParked.save = none
    ∧ (parkedToSave.holderOf 9).map Prod.fst = some 1 ∧ ((parkedToSave.grp 1).bind Grp.save).isSome = true
    ∧ (parkedBeside g0).holderOf ((0x4000000000000009 : W64).toNat % 2 ^ 32) = some (1, gParked)
    ∧ (0x4000000000000009 : W64).toNat / 2 ^ 32 = 2 ^ 30
    ∧ (2 ^ 63 ≤ (0x8000000000000000 : W64).toNat ∧ (0x100000000 : W64).toNat / 2 ^ 32 % 2 ^ 30 ≠ 0)
    ∧ (s0.holderOf 9 = none ∧ s0.savedHolder 9 = none)
    ∧ s0.grp 0 = some g0 ∧ g0.run ≠ .ended ∧ g0.run ≠ .terminated
    ∧ ((0x109 : W64).getLsbD 63 = false ∧ (0x8000000000000109 : W64).getLsbD 63 = true ∧ (0x109 : W64).toNat % 256 ≠ 255)
    ∧ (toTear.teardown.busy = false ∧ toTear.cores.any (fun c => c.2.pending.isSome) = false)
    ∧ (upTo Config.cores).any (fun c => (toTear.coreAt c).part = 9) = false ∧ (toTear.partAt 9).root.getLsbD 63 = false
    ∧ (0x8000000000000109 : W64).toNat / 2 ^ 40 % 2 ^ 22 = 0
    ∧ (upTo Config.cores).any (fun c => (toTear.coreAt c).part = 0) = true
    ∧ (namesMemory toTear.dieMask 0x4000 = true ∧ Memory.readNat toTear.mem 0x4000 8 = 0x200000 ∧ bitOf toTear.dieMask 0 = true)
    ∧ tearing.teardown.busy = true := by
  and_intros <;> decide +kernel

/-! The host's registers, translation requests, migration, leases, checkpoints. -/

/-- Read and write indices of partition 254, and a vector that waits. -/
def ringed : State :=
  { State.reset with parts := [(254, { (State.reset.partAt 254) with fqwidx := 5, fqridx := 3, eqwidx := 5, eqridx := 3 })], msixPending := [511] }

theorem witness_HostRegisters :
    (ringed.partAt 254).waiting = [] ∧ aheadOf (ringed.partAt 254).fqwidx 5 = false ∧ aheadOf (ringed.partAt 254).fqwidx 6 = true
    ∧ aheadOf (ringed.partAt 254).eqwidx 5 = false ∧ aheadOf (ringed.partAt 254).eqwidx 6 = true
    ∧ 511 ∉ ringed.msixUnmasked ∧ 511 ∈ ringed.msixPending ∧ 510 ∉ ringed.msixPending
    ∧ namesMemory 255 0 = true ∧ namesMemory 255 (2 ^ 48 + 2 ^ 34 - 1) = true ∧ namesMemory 255 (2 ^ 48 + 2 ^ 34) = false
    ∧ namesMemory 0x7F (2 ^ 48 + 2 ^ 34 - 1) = false := by
  and_intros <;> decide +kernel

/-- A request to the host for page 2 of partition 0, first of the translation, then of the page. -/
def asked (pri : Bool) : HostRequest := { part := 0, pasid := 0, va := 0x20000, write := false, pri := pri }
def asking (pri : Bool) : State := { State.reset with hostRequests := [asked pri] }

/-- The same where a level of the table, whose valid bit is clear, has its HOST bit set. -/
def viaHost : State :=
  { asking false with mem := [(0x200007, 0x20)], parts := [(0, { root := 0x8000000000200000 })] }

theorem witness_HostTranslations :
    (0x8000000000000002 : W64).getLsbD 63 = true ∧ (2 : W64).getLsbD 63 = false ∧ State.reset.invalidation = none
    ∧ ({ s0 with invalidation := some 2 } : State).invalidationWaits 2 = false
    ∧ answered (asking false) { part := 0, va := 0x2FFFF, granted := true } false = some (asked false)
    ∧ answered (asking false) { part := 0, va := 0x20000, granted := false } false = some (asked false)
    ∧ (match walk viaHost 0 0x2FFFF with | .host => true | _ => false) = true
    ∧ answered viaHost { part := 0, va := 0x2FFFF, granted := true } false = some (asked false)
    ∧ (match walk (asking false) 0 0x2FFFF with | .host => false | _ => true) = true
    ∧ answered (asking true) { part := 0, va := 0x20000, granted := false } true = some (asked true) := by
  and_intros <;> decide +kernel

/-- `s` with the leaf's top byte `b` and PART `p`: what the tables hold of the first page. -/
def leafByte (s : State) (b p : Byte) : State :=
  { mapped s with mem := [(0x200007, 0x80), (0x20000A, 0x30), (0x300000, 0x38)] ++ (if p = 0 then [] else [(0x300006, p)]) ++ [(0x300007, b)] }
/-- The walk of a page: which kind of end, and the leaf. -/
def Walk.leaf? : Walk → Option Leaf
  | .leaf l => some l
  | _ => none

/-- `pmigrate` of the page at s1 to the frame in s2, with the record in s3. -/
def gMig (b c : W64) : Grp := { gS with s := [(1, 0x2000), (2, b), (3, c)] }
def fMig : FC := { fc 1 2 4 0 0 0 with sc := 3 }
/-- A migration of the first page to the second half-gibibyte of far memory, with `p` units copied. -/
def migration0 : Migration := { record := 0x40000000, part := 0, leaf := 0x300000, size := 2 ^ 29, va := 0 }
def migrating (p : List (Nat × Byte)) : State :=
  { mapped s0 with
    mem := [(0x200007, 0x80), (0x20000A, 0x30), (0x300000, 0x38), (0x300007, 0xC9), (0x30000B, 0x40), (0x40000007, 0x08),
      (0x4000000B, 0x20), (0x4000000F, 0x08)] ++ p
    migrations := [migration0] }

/-- The same with three moves of the page just recorded. -/
def movedThrice : State :=
  { migrating [] with
    mem := [(0x200007, 0x80), (0x20000A, 0x30), (0x300000, 0x38), (0x300007, 0xC9), (0x30000B, 0x40), (0x300018, 3), (0x40000007, 0x08),
      (0x4000000B, 0x20), (0x4000000F, 0x08)] }

theorem witness_TiersAndMigration :
    Issues (mapped s0) g0 (.tierq (word 3 0 0)) [1, 3] 1 ∧ g0.loads = []
    ∧ Walk.leaf? (findLeaf (mapped s0) 0 0x2000).1 = some leaf0 ∧ leaf0.part = g0.part
    ∧ (Walk.leaf? (findLeaf (leafByte s0 0xC8 1) 0 0x2000).1).map Leaf.part = some 1
    ∧ Walk.leaf? (findLeaf s0 0 0x2000).1 = none
    ∧ Issues (mapped (stateOf (gMig 0x20000000 0x40000000))) (gMig 0x20000000 0x40000000) (.pmigrate fMig) [1, 2, 3, 4] 1 .supervisor
    ∧ Walk.leaf? (walk (mapped s0) 0 0x2000) = some leaf0 ∧ leaf0.mig = 0 ∧ leaf0.tier = 2
    ∧ (Walk.leaf? (walk (leafByte s0 0xC9 0) 0 0x2000)).map Leaf.mig = some 1
    ∧ (Walk.leaf? (walk (leafByte s0 0xCA 0) 0 0x2000)).map Leaf.mig = some 2
    ∧ (Walk.leaf? (walk s0 0 0x2000)) = none ∧ 0x20000000 % pageBytes leaf0.level = 0
    ∧ namesMemory 255 0x40000000 = true ∧ namesMemory 255 (3 * 2 ^ 48) = false
    ∧ (migrating []).migrations.find? (fun m => m.record = 0x40000000) = some migration0
    ∧ migration0.stalled (migrating []) = false ∧ migration0.overdue (migrating []) = false ∧ migration0.progress (migrating []) = 0
    ∧ migration0.stale (migrating []) = false ∧ (migrating []).passReads 0x40000000 0 = false ∧ migration0.size ≠ 0
    ∧ (match framePlace 255 migration0 (recordDword (migrating []) 0x40000000 0) 0 with | .here a => decide (a = 0) | _ => false) = true
    ∧ (match framePlace 255 migration0 (recordDword (migrating []) 0x40000000 1) 0 with | .here b => decide (b = 0x20000000) | _ => false) = true
    ∧ 256 * (0 + 1) < migration0.size
    ∧ (let s := migrating [(0x40000010, 0xFF), (0x40000011, 0xFF), (0x40000012, 0x1F)]
       let p := migration0.progress s
       256 * p < migration0.size ∧ migration0.size ≤ 256 * (p + 1) ∧ migration0.stalled s = false ∧ migration0.overdue s = false
         ∧ migration0.stale s = false ∧ s.passReads 0x40000000 p = false
         ∧ (match framePlace 255 migration0 (recordDword s 0x40000000 1) (256 * p) with | .here b => decide (b = 0x3FFFFF00) | _ => false) = true)
    ∧ 0x300000 + 32 ≤ 0x3FFFFF00 ∧ 0x3FFFFF00 + 256 ≤ 0x40000000
    ∧ migration0.size ≤ 256 * migration0.progress (migrating [(0x40000012, 0x20)])
    ∧ (let now (s : State) := s.cycleReg / 1024 % 2 ^ 21
       let history (s : State) (k : Nat) : Nat := Memory.readNat s.mem (0x300000 + 8 * k) 8
       let pins (s : State) : Bool := decide (history s 3 % 4 = 3)
         && decide ((now s + 2 ^ 21 - history s 2 / 2 ^ 42 % 2 ^ 21) % 2 ^ 21 < 65536)
       pins (migrating []) = false ∧ pins movedThrice = true) := by
  simp only [Issues, AtTurn, Passes, Free, Room]; and_intros <;> decide +kernel

/-- A lease descriptor at 0x2000: lease 7, peer 1, one granule; `b` is the byte 2 of its first dword, whose bit 0 is BACKED. -/
def leaseBytes (at_ : List (Nat × Byte)) : Memory :=
  [(0x2000, 7), (0x2004, 1)] ++ at_ ++ [(0x2010, 1), (0x200007, 0x80), (0x20000A, 0x30), (0x300000, 0x38), (0x300007, 0xC8)]
/-- The lease table and the memory of a device whose supervisor stands at a lease word with s1 = `a`. -/
def leasing (a : W64) (at_ : List (Nat × Byte)) (ls : List LeaseEntry) (ps : List PendingLmap := []) : State :=
  { mapped (stateOf (gArgs a 0)) with mem := leaseBytes at_, leases := ls, lmaps := ps }
/-- Lease `n` with device 1. -/
def lease (n : Nat) (borrower : Bool) (st : LeaseState) (deadline : Option Nat := none) (rate : Nat := 0) : LeaseEntry :=
  { number := n, borrower := borrower, peer := 1, part := 0, base := 0, gran := 1, notice := 0, backed := false, rate := rate, resv := 0
    rtier := 0, mrec := 0, state := st, deadline := deadline }
/-- A GRANT of the group whose turn it is. -/
def granting (answer : Option Bool) (expired : Bool) : PendingLmap :=
  { gtag := 0, entry := lease 7 true .active, started := 0, answer := answer, expired := expired }

theorem witness_LeaseWords :
    (∀ i ∈ [Instr.lexport (word 3 0 0), .lmap (word 3 0 0), .lreclaim (word 3 0 0), .lack (word 3 0 0)],
      Issues (leasing 0x2000 [] []) (gArgs 0x2000 0) i [1, 3] 1 .supervisor)
    ∧ ReadMany.dwords (readDwords (leasing 0x2000 [] []) ((gArgs 0x2000 0).agent 0 0 0 0x1008 0x1000) 0x2000 8)
      = some [0x100000007, 0, 1, 0, 0, 0, 0, 0]
    ∧ leaseOk 0 [0x100000007, 0, 1, 0, 0, 0, 0, 0] (leaseOfDwords [0x100000007, 0, 1, 0, 0, 0, 0, 0] false) = true
    ∧ leaseOk 0 [0x100000007, 0, 1, 0, 0, 0, 0, 0] (leaseOfDwords [0x100000007, 0, 1, 0, 0, 0, 0, 0] true) = true
    ∧ leaseOk 1 [0x100000007, 0, 1, 0, 0, 0, 0, 0] (leaseOfDwords [0x100000007, 0, 1, 0, 0, 0, 0, 0] false) = false
    ∧ (leasing 0x2000 [] [lease 7 false .lent]).leaseInUse 7 = true
    ∧ (leasing 0x2000 [] []).leaseInUse 7 = false ∧ (leasing 0x2000 [] []).leasesFull = false
    ∧ (leasing 0x2000 [] (List.replicate 4096 (lease 8 false .lent))).leasesFull = true
    ∧ (lease 9 false .lent).overlaps (lease 7 false .exported) = true
    ∧ (leasing 0x2000 [] []).rateSum + 0 ≤ 1050000 ∧ 1050000 < (leasing 0x2000 [] [lease 8 true .active none 1050001]).rateSum
    ∧ (leasing 0x2000 [] [] [granting (some true) false]).lmaps.find? (fun p => p.gtag = 0) = some (granting (some true) false)
    ∧ (leasing 7 [] [lease 7 false .exported]).lent 7 = some (lease 7 false .exported)
    ∧ (leasing 7 [] [lease 7 false .lent]).lent 7 = some (lease 7 false .lent)
    ∧ (leasing 7 [] [lease 7 false .reclaiming]).lent 7 = some (lease 7 false .reclaiming)
    ∧ (leasing 0xFFFF [] []).lent 0xFFFF = none ∧ (leasing 0xFFFF [] []).borrowed 0xFFFF = none
    ∧ (leasing 7 [] [lease 7 true .demoting]).borrowed 7 = some (lease 7 true .demoting)
    ∧ (leasing 7 [] [lease 7 true .revoked]).borrowed 7 = some (lease 7 true .revoked)
    ∧ (leasing 7 [] [lease 7 true .revoked]).leaseHeld (lease 7 true .revoked) = false
    ∧ (leasing 7 [] [lease 7 true .returning]).borrowed 7 = some (lease 7 true .returning)
    ∧ (leasing 7 [] [lease 7 true .active]).borrowed 7 = some (lease 7 true .active) := by
  simp only [Issues, AtTurn, Passes, Free, Room]; and_intros <;> decide +kernel

/-- A group with a load on its way to a page that lease 7 lends. -/
def gLocked : Grp :=
  let w : FM := { vd := 2, sa := 1, sb := 0, vi := 0, mreg := 0, ord := 0, scope := 0, am := 0, fof := 0, na := 0, ew := 0, imm := 0, cf := 0 }
  { gArgs 7 0 with
    flights := [{ entry := { id := 0, pc := 0x1008, hdr := 0x1000, instr := .vld w }, phase := .accesses
                  todo := [{ elem := 0, size := 8, va := 0, target := .leased 7 0 }] }] }

theorem witness_LeaseEvents :
    (leasing 7 [] [lease 7 false .exported]).lent 7 = some (lease 7 false .exported)
    ∧ (leasing 7 [] [lease 7 false .lent]).pendingLmap { src := 1, lease := 7 } = none
    ∧ (leasing 7 [] [lease 7 false .reclaiming (some 0)]).lent 7 = some (lease 7 false .reclaiming (some 0))
    ∧ (leasing 7 [] [] [granting none false]).pendingLmap { src := 1, lease := 7 } = some (granting none false)
    ∧ (leasing 7 [] [] [granting none false]).lmaps.find? (fun p => p.entry.number = 7 && p.open_)
      = some (granting none false)
    ∧ (granting none false).started + 360000 ≤ ({ leasing 7 [] [] [granting none false] with cycle := 360000 } : State).cycle
    ∧ (leasing 7 [] [lease 7 true .active]).borrowed 7 = some (lease 7 true .active)
    ∧ (leasing 7 [] [lease 7 true .demoting (some 0)]).leaseHeld (lease 7 true .demoting (some 0)) = false
    ∧ (leasing 7 [] [lease 7 true .demoting (some 0)]).borrowed 7 = some (lease 7 true .demoting (some 0))
    ∧ (leasing 7 [] []).root.failedStage = 0 ∧ (leasing 7 [] []).lent 7 = none
    ∧ (leasing 7 [] []).pendingLmap { src := 2, lease := 7 } = none ∧ (lease 7 true .active).peer ≠ 2
    ∧ (leasing 7 [] [lease 7 true .active]).pendingLmap { src := 1, lease := 7 } = none
    ∧ (let n : Migration := { migration0 with lease := some 7, locked := true }
       let s : State := { leasing 7 [] [lease 7 true .demoting (some 0)] with groups := [(0, gLocked)], migrations := [n] }
       s.leaseHeld (lease 7 true .demoting (some 0)) = true
         ∧ s.migrations.find? (fun n => decide (n.lease = some 7) && n.locked) = some n) := by
  and_intros <;> decide +kernel

/-- A checkpoint descriptor at 0x2000: one target, device 1, 65,535 granules from 0. -/
def ckptState (n : Byte) : State :=
  { mapped (stateOf (gArgs 0x2000 0)) with
    mem := [(0x2000, n), (0x2010, 1), (0x2014, 0xFF), (0x2015, 0xFF), (0x200007, 0x80), (0x20000A, 0x30), (0x300000, 0x38), (0x300007, 0xC8)] }
def ckptDs (n : W64) : List W64 := [n, 0, 0xFFFF00000001] ++ List.replicate 15 0
/-- A checkpoint that is over, to this device alone, with a counter or none. -/
def ckptDone (counter : W64) : Ckpt :=
  { counter := counter, part := 0, launch := 0, gtag := 0, targets := [(0, 0xFFFF, 0)], pc := 0, hdr := 0, next := State.reset.imageBytes / 256 }
/-- A window that takes data of device 1 at the first granule of near memory. -/
def windowed : State := { State.reset with windows := [(7, (0x8000000000000001, 1))] }

theorem witness_Checkpoints :
    Issues (ckptState 1) (gArgs 0x2000 0) (.ckpt (fc 1 2 3 0 0 0)) [1, 2, 3] 1 .supervisor
    ∧ (ckptState 1).ckpt = none ∧ (gArgs 0x2000 0).quiet 4 = true
    ∧ ReadMany.dwords (readDwords (ckptState 1) ((gArgs 0x2000 0).agent 0 0 0 0x1008 0x1000) 0x2000 18) = some (ckptDs 1)
    ∧ ckptTargets (ckptState 1).imageBytes (ckptDs 1) = some [(1, 0xFFFF, 0)] ∧ ckptTargets (ckptState 1).imageBytes (ckptDs 9) = none
    ∧ ckptAccepts windowed 1 0 = true ∧ ckptAccepts windowed 1 (2 ^ 29) = false
    ∧ State.reset.imageBytes ≤ 256 * (ckptDone 0).next ∧ State.reset.draining = false ∧ (∀ t ∈ (ckptDone 0).targets, t.1 = State.reset.fabric.device)
    ∧ ({ ckptDone 0 with failed := some 1 } : Ckpt).failed ≠ none
    ∧ (translate (mapped s0) (ckptDone 0x3000).part (ckptDone 0x3000).counter .atomic).1 = .ok leaf0 (.phys 0x3000) := by
  simp only [Issues, AtTurn, Passes, Free, Room]; and_intros <;> decide +kernel

/-! The front end, the fabric, the root. -/

/-- A group that has to fetch the clause at 0x1000: a header, and a `nop`; one that has been passed over for 256 cycles. -/
def gFetch (since : Option Nat) : Grp := { g0 with pc := 0x1000, clause := [], waitingSince := since }
def fetching (since : Option Nat) (header : List (Nat × Byte)) : State :=
  { mapped (stateOf (gFetch since)) with
    cycle := 256, mem := header ++ [(0x100F, 0x16), (0x200007, 0x80), (0x20000A, 0x30), (0x300000, 0x38), (0x300007, 0xC8)] }
/-- The dwords of a clause fetched whole. -/
def fetchedDwords (s : State) (g : Grp) : Option (List W64) :=
  match fetchRest (notePassedOver s 0 0) { g with waitingSince := none } g.hdr g.partly 16 with
  | .whole _ ds => some ds
  | _ => none

theorem witness_ClauseFetch :
    chooseForFetch (fetching none [(0x1007, 0x10)]) 0 = some (gFetch none)
    ∧ chooseForFetch (fetching (some 0) [(0x1007, 0x10)]) 0 = some (gFetch (some 0))
    ∧ (gFetch (some 0)).starving (fetching (some 0) [(0x1007, 0x10)]) = true
    ∧ (gFetch (some 1)).starving (fetching (some 1) [(0x1007, 0x10)]) = false
    ∧ (gFetch none).eligible (fetching none [(0x1007, 0x10)]) = true ∧ fetchMoves (fetching none [(0x1007, 0x10)]) (gFetch none) = true
    ∧ fetchedDwords (fetching none [(0x1007, 0x10)]) (gFetch none) = some [0x1000000000000000, 0x1600000000000000]
    ∧ clauseCase 0x1000000000000000 [0x1600000000000000] = none ∧ (gFetch none).midClause = false
    ∧ (let x (w : W64) (lo n : Nat) : Nat := w.toNat / 2 ^ lo % 2 ^ n
       x 0 60 4 = 0 ∧ x 1 0 38 ≠ 0 ∧ (x 0xC80000000000 43 1 = 1 ∧ 11 < x 0xC80000000000 44 4) ∧ (x 0x100000000000 43 1 = 0 ∧ x 0x100000000000 44 4 ≠ 0)
         ∧ (x 0x084000000000 43 1 = 1 ∧ x 0x084000000000 38 1 = 1 ∧ x 0x084000000000 44 4 = x 0x084000000000 39 4)
         ∧ ((1 : W64).getLsbD 0 = true ∧ x 0x1000000000000000 43 1 = 0)
         ∧ ([0x3000000000000000, 0x1600000000000000] : List W64).dropLast = [0x3000000000000000]
         ∧ fnOf 0x3000000000000000 = 0 ∧ opOf 0x3000000000000000 = 0x18)
    ∧ (fetchedDwords (fetching none []) (gFetch none)).bind (fun ds => clauseCase (ds.headD 0) ds.tail) = some 1 := by
  and_intros <;> decide +kernel

/-- A load of one dword by device 1, and an answer of device 1 to the request that `requested` has sent it. -/
def packet0 : Packet := { kind := 1, esize := 64, src := 1, dst := 0, ftag := 0, addr := 0x2000, mask := [0] }
def answer0 : Packet := { packet0 with kind := 0x10 }
def request0 (n : Nat) : Request := { dst := 1, seq := 0, what := .packet packet0, who := .load 0 0, part := 0, sent := true, resends := n }
def requested (n : Nat) : State :=
  { s0 with cycle := 57600, fabric := { State.reset.fabric with requests := [request0 n] } }

theorem witness_RemoteRequests :
    s0.root.failedStage = 0 ∧ packet0.esize ∈ [8, 16, 32, 64] ∧ answer0.kind = 0x10
    ∧ packet0.dst = s0.fabric.device ∧ packet0.reserved = false ∧ (packetOp packet0).isSome = true
    ∧ (match (s0.window 1).look 0 with | .fresh => true | _ => false) = true
    ∧ (match ((s0.markSeen 1 0 none).window 1).look 0 with | .again none => true | _ => false) = true
    ∧ (match ((s0.markSeen 1 0 (some answer0)).window 1).look 0 with | .again (some q) => decide (q = answer0) | _ => false) = true
    ∧ s0.fabric.requests.find? (fun r => r.dst = 1 && r.seq = 0 && r.sent) = none
    ∧ (requested 6).fabric.requests.find? (fun r => r.dst = 1 && r.seq = 0 && r.sent) = some (request0 6)
    ∧ (let v : Serving := { src := 1, seq := 0, what := .packet packet0, todo := [0] }
       let w : Serving := { v with seq := 1 }
       w ≠ v ∧ w.todo ≠ [] ∧ (serveNext { s0 with fabric := { State.reset.fabric with serving := [w, v] } } v none).isNone = true)
    ∧ (request0 6).at_ + 57600 ≤ (requested 6).cycle ∧ (request0 6).resends < 7 ∧ 7 ≤ (request0 7).resends := by
  and_intros <;> decide +kernel

/-- A port with a packet of two flits waiting. -/
def port15 : Port := { vc0 := [{ what := .packet packet0, left := 2 }], slots := 255 }
def ported (p : Port) : State := { State.reset with fabric := { State.reset.fabric with ports := [(15, p)] } }
/-- A die with one core where requests wait. -/
def owing : State :=
  { (State.reset.setCore 1023 { State.reset.coreAt 1023 with asking := true, bucket := 3 }).setPart 0 { State.reset.partAt 0 with share := 256 } with cycle := 1024 }

theorem witness_PortsAndLinks :
    (FMap.get {} (ported port15).fabric.ports 15).slots < 256 ∧ (FMap.get {} (ported port15).fabric.ports 15).starve1 ≠ 255
    ∧ (FMap.get {} (ported port15).fabric.ports 15).bucket = 0 ∧ (FMap.get {} (ported port15).fabric.ports 15).vc0 ≠ []
    ∧ (FMap.get {} (ported port15).fabric.ports 15).starve2 ≠ 255
    ∧ (let w : Waiting := { what := .packet packet0, left := 1, reserve := true }
       let p : Port := { port15 with vc1 := [w], vc2 := [w], slots := 0 }
       p.vc2 = [w] ∧ w.reserve = true ∧ 0 < ({ p with bucket := 1 } : Port).bucket ∧ p.bucket = 0
         ∧ ({ p with starve1 := 255 } : Port).starve1 = 255 ∧ (p.starve2 ≠ 255 ∧ ({ p with vc0 := [] } : Port).vc0 = [])
         ∧ p.starve1 ≠ 255 ∧ ({ p with starve2 := 255 } : Port).starve2 = 255 ∧ ({ p with vc0 := [], vc1 := [] } : Port).vc1 = []
         ∧ ∀ v ∈ port15.vc0.head?, v.reserve = false)
    ∧ 256 ≤ (FMap.get {} (ported { port15 with slots := 256 }).fabric.ports 15).slots
    ∧ (owing.dieAt 7).refilled + 1024 ≤ owing.cycle ∧ activeParts owing 7 = [0] ∧ waitingPorts owing 7 0 = [1023]
    ∧ (owing.partAt 0).share ≠ 0 ∧ activeParts owing 6 = [] := by
  and_intros <;> decide +kernel

/-- The validity of an image is the device's (log entry 14): each of the two clauses about it holds whatever it is. -/
theorem witness_Root :
    (∀ k ∈ [1, 2], let r : Root := { State.reset.root with busy := true, opn := k, doing := k }
      r.busy = true ∧ r.doing = k)
    ∧ State.reset.root.failedStage = 0 ∧ State.reset.root.stages < State.reset.bootStages
    ∧ (sevenDies g0).root.stages < (sevenDies g0).bootStages ∧ ¬(State.reset.root.busy = true ∧ State.reset.root.doing = 2)
    ∧ (([0x13, 0x84] : List (BitVec 8)).getD 1 0).toNat = 0x84 ∧ (([0x13, 0x81] : List (BitVec 8)).getD 1 0).toNat ≠ 0x84 := by
  and_intros <;> decide +kernel

/-! Vector instructions: `g0` alone on its core. -/

theorem alone_g0 : Alone s0 g0 :=
  ⟨⟨rfl, rfl⟩, rfl, rfl, rfl, rfl, rfl, rfl, rfl, rfl, rfl, rfl, fun _ => (show 0 < 63 by decide), by intro p; cases p <;> decide, by decide⟩

/-- The word passes its checks and leaves the queue without a trap, in group `g`. -/
def Runs (g : Grp) (i : Instr) (n : VNeeds := {}) : Prop := Passes g i ∧ g.exitTrap (g.entryOf i n) = none

/-- A vector word of the type TY (R197) on v2, v3 (and v4) to v1, under no mask of its own but m0. -/
def fv (ty : BitVec 16) (vb : BitVec 5 := 3) (vc : BitVec 5 := 0) : FV :=
  { vd := 1, va := 2, vb := vb, vc := vc, mreg := 0, xm := 0, xmd := 0, rm := 0, sat := 0, ew := 0, imm := ty, cf := 0 }
/-- The same with the scalar s2. -/
def fvs (ty : BitVec 16) (va : BitVec 5 := 2) (sb : BitVec 6 := 2) : FVS :=
  { vd := 1, va := va, sb := sb, zero := 0, mreg := 0, xm := 0, xmd := 0, rm := 0, sat := 0, ew := 0, imm := ty, cf := 0 }

theorem witness_VectorArithmetic :
    Alone s0 g0
    ∧ (∀ i ∈ [Instr.vadd (fv 2), .vsub (fv 2), .vmul (fv 2), .vmin (fv 2), .vmax (fv 2), .vand (fv 2), .vor (fv 2), .vxor (fv 2),
        .vnot (fv 2 0), .vsll (fv 2), .vsrl (fv 2), .vsra (fv 2), .vdiv (fv 8), .vsqrt (fv 8 0), .vabs (fv 8 0), .vneg (fv 8 0),
        .vmulh (fv 2), .vabd (fv 2), .vclz (fv 2 0), .vctz (fv 2 0), .vpopc (fv 2 0), .vfsgnj (fv 8), .vfround (fv 8 0)], Runs g0 i)
    ∧ (∀ i ∈ [Instr.vaddVs (fvs 2), .vsubVs (fvs 2), .vmulVs (fvs 2), .vminVs (fvs 2), .vmaxVs (fvs 2), .vandVs (fvs 2),
        .vorVs (fvs 2), .vxorVs (fvs 2), .vsllVs (fvs 2), .vsrlVs (fvs 2), .vsraVs (fvs 2)], Runs g0 i)
    ∧ (∀ i ∈ [Instr.vaddImm (fv 0xFFF2 0), .vandImm (fv 0x8002 0), .vsllImm (fv 0x1F2 0), .vsrlImm (fv 0x12 0), .vsraImm (fv 0x12 0)],
        Runs g0 i)
    ∧ (∀ i ∈ [Instr.vwadd (fv 1), .vwmul (fv 1), .vffma (fv 8 3 4), .vffms (fv 8 3 4), .vffnma (fv 8 3 4), .vffnms (fv 8 3 4),
        .vfexp2 (fv 8 0), .vflog2 (fv 8 0), .vfrcp (fv 8 0), .vfrsq (fv 8 0), .vftanh (fv 8 0), .vdot4 (fv 0), .vfdot2 (fv 9),
        .vfdot4 (fv 11)], Runs g0 i) :=
  ⟨alone_g0, by simp only [Runs, Passes]; decide +kernel, by simp only [Runs, Passes]; decide +kernel,
    by simp only [Runs, Passes]; decide +kernel, by simp only [Runs, Passes]; decide +kernel⟩

theorem witness_ElementLoop :
    g0.active 0 63 = true ∧ g0.active 0 64 = false ∧ 63 < g0.vtail ∧ (8 : Nat) ∈ [4, 8, 16, 32, 64] := by
  and_intros <;> decide +kernel

theorem witness_IntegerElements :
    typeWidth 0 = 8 ∧ 255 < 2 ^ typeWidth 0 ∧ 128 = 2 ^ (typeWidth 0 - 1) ∧ typeWidth 7 = 64 ∧ 0 < 2 ^ typeWidth 7 ∧ 4 ≤ 7 := by
  and_intros <;> decide +kernel

theorem witness_MovesAndMasks :
    Alone s0 g0
    ∧ (∀ i ∈ [Instr.vbcast (fvs 2 0), .vins (fvs 0x3F2 0), .mput (fvs 0x1F0 0), .msbf (fvs 2 2 0), .msif (fvs 2 2 0), .msof (fvs 2 2 0),
        .mfirst { fvs 0 2 3 with vd := 0 }, .mpopc { fvs 0 2 3 with vd := 0 }], Runs g0 i)
    ∧ (∀ i ∈ [Instr.vget { sd := 3, sa := 2, imm := 0x3F2, ext := 0, cf := 0 }, .mget { sd := 3, sa := 2, imm := 0x1F00, ext := 0, cf := 0 },
        .vsetvl { sd := 3, sa := 2, imm := 0x2, ext := 0, cf := 0 }], Runs g0 i)
    ∧ (∀ i ∈ [Instr.vid { fv 2 0 with va := 0 }, .viota (fv 2 0), .vmerge (fv 2 3 2), .vmv (fv 2 0), .vfclass (fv 8 0), .vcmpeq (fv 2),
        .vcmpne (fv 2), .vcmplt (fv 2), .vcmple (fv 2), .vcmpun (fv 8), .mand (fv 2), .mor (fv 2), .mxor (fv 2), .mandn (fv 2),
        .mnot (fv 2 0)], Runs g0 i) :=
  ⟨alone_g0, by simp only [Runs, Passes]; decide +kernel, by simp only [Runs, Passes]; decide +kernel,
    by simp only [Runs, Passes]; decide +kernel⟩

theorem witness_CrossElementWords :
    Alone s0 g0
    ∧ (∀ i ∈ [Instr.vperm (fv 2), .vrev (fv 2 0), .vqx (fv 2 0), .vqy (fv 2 0), .vqd (fv 2 0), .vqbc (fv 0x32 0), .vcompress (fv 2),
        .vexpand (fv 2), .vsegscanAdd (fv 2), .vsegscanMin (fv 2), .vsegscanMax (fv 2), .vsegredAdd (fv 2), .vsegredMin (fv 2),
        .vsegredMax (fv 2)], Runs g0 i)
    ∧ (∀ i ∈ [Instr.vslideup (fvs 2), .vslidedn (fvs 2), .vslide1up (fvs 2), .vslide1dn (fvs 2)], Runs g0 i) :=
  ⟨alone_g0, by simp only [Runs, Passes]; decide +kernel, by simp only [Runs, Passes]; decide +kernel⟩

/-- Running values that start afresh at each segment, for any elements and operation. -/
def runOf (contributes starts : Nat → Bool) (x : Nat → Nat) (op : Nat → Nat → Nat) : Nat → Option Nat
  | 0 => if contributes 0 then some (x 0) else none
  | e + 1 =>
    let before := if starts (e + 1) then none else runOf contributes starts x op e
    if contributes (e + 1) then (match before with | none => some (x (e + 1)) | some a => some (op a (e + 1))) else before

/-- The running values that the statement speaks of exist for every group. -/
theorem witness_CrossElementWords_run (contributes starts : Nat → Bool) (x : Nat → Nat) (op : Nat → Nat → Nat) (h : starts 0 = true) :
    ∃ run : Nat → Option Nat, ∀ e, run e =
      let before := if starts e then none else run (e - 1)
      if contributes e then (match before with | none => some (x e) | some a => some (op a e)) else before :=
  ⟨runOf contributes starts x op, fun e => by cases e <;> simp [runOf, h]⟩

/-- VL 6, VTAIL 5, element 3 masked; m3 starts segments at 2 and 4. -/
def gSeg : Grp := { g0 with m := [(0, 0xFFF7), (3, 20)], vl := 6, vtail := 5 }

/-- Segments 0-1, 2-3 and 4-5: each clause about a segment has one that meets it, and each about an element. -/
theorem witness_CrossElementWords_segments :
    let contributes (e : Nat) : Bool := gSeg.active 0 e && decide (e < gSeg.vtail)
    let starts (e : Nat) : Bool := decide (e = 0) || (gSeg.mask 3).getLsbD e
    (contributes 4 = true ∧ contributes 5 = false ∧ contributes 3 = false)
      ∧ (starts 2 = true ∧ gSeg.active 0 2 = true ∧ (∀ k < 4, 2 < k → starts k = false) ∧ starts 4 = true)
      ∧ ((∀ k < 6, 4 < k → starts k = false) ∧ 5 + 1 = gSeg.vl) ∧ starts 1 = false
      ∧ gSeg.active 0 3 = false := by
  and_intros <;> decide +kernel

/-- A matrix word of format FX on v1 and accumulator 1. -/
def fx (shape : BitVec 5) (sa : BitVec 6 := 0) : FX :=
  { acc := 1, sa := sa, sb := 0, sc := 0, mreg := 0, shape := shape, afmt := 0, bfmt := 0, spar := 0, ext := 0, cf := 0 }

theorem witness_ConversionsAndTiles :
    Alone s0 g0
    ∧ (∀ i ∈ [Instr.vcvt (fv 0x28 0), .vwcvt (fv 0x98 0), .vncvt (fv 0x89 0), .vqscale (fv 0x8B 0), .vqapply (fv 0x8B), .vdqapply (fv 0x8B),
        .vbpack { fv 0 0 with vd := 8 }, .vbunpack { fv 0x7000 0 with va := 8 }, .vrank (fv 8 0), .vrankMag (fv 8 0), .vrkmerge (fv 8), .vrkpack (fv 8 0), .unrank (fv 8 0)],
      Runs g0 i)
    ∧ (∀ i ∈ [Instr.mxext { fx 0 with afmt := 8, bfmt := 8 }, .mxmovIn (fx 0), .mxmovOut (fx 0), .mxclr (fx 0)], Runs g0 i) :=
  ⟨alone_g0, by simp only [Runs, Passes]; decide +kernel, by simp only [Runs, Passes]; decide +kernel⟩

/-- Four elements of f32 in v2: 1, 8, a NaN and 0; v3 holds 0x85 in element 0. -/
def gVals : Grp :=
  { g0 with vl := 4, vtail := 4, v := [(2 * g0.regWords, 0x3F800000), (2 * g0.regWords + 1, 0x41000000), (2 * g0.regWords + 2, 0x7FC00000),
      (3 * g0.regWords, 0x85)] }

/-- What the clauses on values ask of a group and of two entries. -/
theorem witness_ConversionsAndTiles_values :
    gVals.codeOf (fv 0x8B 0).view.ty ∈ [11, 12, 13, 0] ∧ gVals.codeOf (fv 0x8B 0).view.ty2 ∈ [8, 9, 10]
    ∧ (let x (e : Nat) : FVal := readFloat 8 (gVals.elem 2 32 e)
       x 1 = .fin false (2 ^ 23) (-20) ∧ (x 2).notFinite = true ∧ (x 3).isZero = true ∧ valueLt (x 1).abs (x 0).abs = false)
    ∧ (gVals.active 0 3 = true ∧ gVals.active 0 4 = false ∧ 3 < gVals.vtail ∧ (0 * 16 ≤ 3 ∧ 3 < (0 + 1) * 16))
    ∧ gVals.typeOf (fv 8 0).view ∈ [8, 9, 10, 1, 2] ∧ 4 ≤ gVals.regWords ∧ gVals.rankcfg.toNat / 2 ^ 32 % 2 ^ 15 + gVals.vl ≤ 0x7FFF
    ∧ (nanKey 8 0x3F800000 = false ∧ nanKey 8 0x41000000 = false)
    ∧ (valueLt (readFloat 8 0x3F800000) (readFloat 8 0x41000000) = true ∧ valueLt (readFloat 8 0) (readFloat 8 0x80000000) = false
      ∧ valueLt (readFloat 8 0x80000000) (readFloat 8 0) = false) := by
  and_intros <;> decide +kernel

theorem witness_VectorReductions :
    Alone s0 g0
    ∧ (∀ i ∈ [Instr.vredsum { fvs 2 with vd := 0 }, .vredmin { fvs 2 with vd := 0 }, .vredmax { fvs 2 with vd := 0 },
        .vredand { fvs 2 with vd := 0 }, .vredor { fvs 2 with vd := 0 }, .vredxor { fvs 2 with vd := 0 }], Runs g0 i)
    ∧ 255 < 2 ^ typeWidth 0 ∧ g0.vl ≤ 2048 ∧ (8 : Nat) ∈ [8, 9, 10] :=
  ⟨alone_g0, by simp only [Runs, Passes]; decide +kernel, by decide +kernel, by decide +kernel, by decide +kernel⟩

/-- The nodes of a tree over leaves, for any leaves and operation. -/
def nodeOf (leaf : Nat → Option (Nat × Nat)) (op : Nat → Nat → Nat × Nat) : Nat → Nat → Option (Nat × Nat)
  | 0, k => leaf k
  | j + 1, k =>
    match nodeOf leaf op j (2 * k), nodeOf leaf op j (2 * k + 1) with
    | none, y => y
    | x, none => x
    | some x, some y => some ((op x.1 y.1).1, Nat.lor (Nat.lor x.2 y.2) (op x.1 y.1).2)

/-- The nodes that the statement speaks of exist for every group. -/
theorem witness_VectorReductions_tree (leaf : Nat → Option (Nat × Nat)) (op : Nat → Nat → Nat × Nat) :
    ∃ node : Nat → Nat → Option (Nat × Nat), (∀ e, node 0 e = leaf e) ∧ ∀ j k, node (j + 1) k =
      match node j (2 * k), node j (2 * k + 1) with
      | none, y => y
      | x, none => x
      | some x, some y => some ((op x.1 y.1).1, Nat.lor (Nat.lor x.2 y.2) (op x.1 y.1).2) :=
  ⟨nodeOf leaf op, fun e => by simp [nodeOf], fun j k => by rw [nodeOf]⟩

/-! The vector queue, vector memory. -/

/-- A memory word of format FM on v2, its address in s1. -/
def fm (sa : BitVec 6 := 1) : FM :=
  { vd := 2, sa := sa, sb := 0, vi := 0, mreg := 0, ord := 0, scope := 0, am := 0, fof := 0, na := 0, ew := 0, imm := 0, cf := 0 }
/-- The same without a register, and of a peer's scratchpad: v4 holds the places, m1 the mask of those not reached. -/
def fmNone : FM := { fm with vd := 0 }
def fmPeer : FM := { fm 0 with am := 2, vi := 4, sb := 1 }
/-- A form over streams in s9 to s11, s15 to s17 and the destination in s18 to s20. -/
def ff (sb : BitVec 6) (ext : BitVec 10) : FF :=
  { lbid := 1, sa := 9, sb := sb, sc := 0, vd := 0, attr := 0, nest := 0, ext := ext, cf := 0 }
/-- A `map` with NEST, and the `reduce` after it. -/
def fMap : FF := { ff 0 0x3C0 with nest := 1 }
def gNest : Grp := { g0 with clause := [0x2000000000000000, fMap.toWord 0x50 0, (ff 0 0).toWord 0x52 0] }

theorem witness_WordsThatEnterTheQueue :
    AtTurn s0 g0
    ∧ (∀ i ∈ [Instr.vld fm, .vst fm, .vaadd fm, .vafadd fm, .vaand fm, .vaor fm, .vaxor fm, .vamin fm, .vamax fm, .vaswap fm, .vacas fm,
        .vcflush fmNone, .vcwb fmNone, .vlds fm, .vsts fm, .vldp fmPeer, .vstp fmPeer, .rld (fm 2), .rst (fm 2), .raadd (fm 2),
        .rafadd (fm 2), .raor (fm 2), .ramin (fm 2), .ramax (fm 2), .raswap (fm 2), .rcas (fm 2)], Passes g0 i)
    ∧ (∀ i ∈ [Instr.mxmul { fx 0 12 with sb := 15 }, .mxmulZ { fx 0 12 with sb := 15 }, .mxbp { fx 0 12 with sb := 15, bfmt := 15, ext := 1 },
        .mxbpZ { fx 0 12 with sb := 15, bfmt := 15, ext := 1 }, .rkacc { fx 0 12 with sb := 15, afmt := 9, bfmt := 9 }], Passes g0 i)
    ∧ (∀ i ∈ [Instr.ldattAtt (sr 0 0 1), .ldattRec (sr 0 0 1), .copy (fc 1 2 0 0 0 0), .tcopy { fc 1 2 4 0 0 0 with sc := 3 },
        .coll { fc 1 2 4 0 0 0 with sc := 3 }, .zip (ff 15 0x3C0), .reduce (ff 0 0), .scan (ff 0 0x3C0), .scanX (ff 0 0x3C0),
        .stencil (ff 0 0x3C0), .gapply (ff 0 0x3C0), .map (ff 0 0x3C0)], Passes g0 i)
    ∧ g0.blocked = false ∧ g0.anyPending [1, 2, 3, 9, 10, 11] = false ∧ g0.vqUsed < 64 ∧ memoryAllowed s0 0 g0 = true
    ∧ (∀ p ∈ [Path.ld, .st, .sp, .cp, .mx, .fb], g0.counter p < 65535) ∧ g0.flag 0 < 63
    ∧ Passes gNest (.map fMap) ∧ (Instr.map fMap).check.reasons = [] ∧ gNest.innerWord = some (.reduce (ff 0 0), ff 0 0)
    ∧ g0.innerWord = none ∧ gNest.vqUsed + 2 ≤ 64 := by
  simp only [AtTurn, Passes]; and_intros <;> decide +kernel

/-- An entry of the queue with the word `i` and the scalars it took. -/
def entryOf0 (i : Instr) (ops : List W64) (probe : Option (List Access) := none) : VEntry :=
  { id := 0, pc := 0x1008, hdr := 0x1000, instr := i, ops := ops, probe := probe }
/-- `g0` with only element 0 let through, and with an entry at the head of its queue or a word under way. -/
def gHead (e : VEntry) : Grp := { g0 with m := [(0, 1)], vq := [e], nextId := 1 }
def gUnder (fl : Flight) : Grp := { g0 with m := [(0, 1)], flights := [fl], nextId := 1 }
/-- A load of one element at 0x2000; the access that its probe finds. -/
def eLd : VEntry := entryOf0 (.vld fm) [0x2000, 0]
def acc0 : Access := { elem := 0, size := 4, va := 0x2000, target := .phys 0x2000 }
/-- The end of a probe: its accesses, or its trap. -/
def Probed.ends : Probed → Option (List Access) × Option TrapInfo
  | .ok _ l => (some l, none)
  | .trap _ i => (none, some i)
  | _ => (none, none)
/-- A word whose accesses are under way. -/
def under (i : Instr) (a : List Access) : Flight :=
  { entry := entryOf0 i [0x2000, 0], phase := .accesses, todo := a, vals := a.map (fun x => (x.elem, 7, 9)), width := 32 }

theorem witness_VectorMemory :
    (stateOf (gHead eLd)).grp 0 = some (gHead eLd) ∧ memWordOf eLd.instr = some ⟨fm, .load, false⟩
    ∧ (gHead eLd).exitTrap eLd = none
    ∧ ((gHead eLd).exitTrap (entryOf0 (.vld { fm with ew := 4, vd := 31 }) [0x2000, 0])).isSome = true
    ∧ (Probed.ends (probeWord (mapped (stateOf (gHead eLd))) (gHead eLd) ⟨fm, .load, false⟩ [0x2000, 0])).1 = some [acc0]
    ∧ (Probed.ends (probeWord (mapped (stateOf (gHead eLd))) (gHead eLd) ⟨fm, .load, false⟩ [0x2003, 0])).2.isSome = true
    ∧ (gHead { eLd with probe := some [acc0] }).hazard eLd.instr = false
    ∧ (let fl : Flight := { entry := eLd, todo := [acc0] }
       let g := gUnder fl
       OnUnit (stateOf g) 0 g fl ∧ memReady (stateOf g) 0 g fm fl = true ∧ g.activeList 0 ≠ []
         ∧ (stateOf g).hasTokens g.core (wordTokens ⟨fm, .load, false⟩ fl) = true)
    ∧ (let g : Grp := { gUnder { entry := eLd } with m := [] }
       OnUnit (stateOf g) 0 g { entry := eLd } ∧ g.activeList 0 = [])
    ∧ (∀ i ∈ [Instr.vld fm, .vst fm, .vaadd fm, .vacas fm], let fl := under i [acc0]
       UnderWay (stateOf (gUnder fl)) 0 (gUnder fl) fl ∧ (memWordOf i).isSome = true ∧ acquires i = false
         ∧ (gUnder fl).readAhead = [])
    ∧ (let fl := under (.vcwb fmNone) []
       UnderWay (stateOf (gUnder fl)) 0 (gUnder fl) fl)
    ∧ Runs g0 (.vprefetch fmNone) := by
  simp only [OnUnit, UnderWay, Runs, Passes]; and_intros <;> decide +kernel

/-- A remote load of one element of device 9. -/
def eRld : VEntry := entryOf0 (.rld (fm 2)) [0x2000, 0, 9]

theorem witness_RemoteWords :
    (let fl : Flight := { entry := eRld }
     let g := gUnder fl
     OnUnit (stateOf g) 0 g fl ∧ memWordOf eRld.instr = some ⟨fm 2, .load, true⟩ ∧ memReady (stateOf g) 0 g (fm 2) fl = true
       ∧ remoteReady (stateOf g) g fl = true
       ∧ g.accessed 0 = [0])
    ∧ (let g : Grp := { gUnder { entry := eRld } with m := [] }
       OnUnit (stateOf g) 0 g { entry := eRld } ∧ g.accessed 0 = [])
    ∧ (let fl : Flight := { entry := eRld, phase := .remote, waits := [(9, 0)], width := 32 }
       (stateOf (gUnder fl)).grp 0 = some (gUnder fl) ∧ fl.failed = [] ∧ fl.got = [] ∧ packet0.leased = false) :=
  ⟨by simp only [OnUnit]; decide +kernel, by simp only [OnUnit]; decide +kernel, by decide +kernel⟩

/-- `g0` with element 0 let through and s1 = 4092: the last word of its scratchpad. -/
def gEdge : Grp := { g0 with m := [(0, 1)], s := [(1, 4092)] }
theorem alone_gEdge : Alone (stateOf gEdge) gEdge :=
  ⟨⟨rfl, rfl⟩, rfl, rfl, rfl, rfl, rfl, rfl, rfl, rfl, rfl, rfl, fun _ => (show 0 < 63 by decide), by intro p; cases p <;> decide, by decide⟩

/-- Core 1023 with its first granule owned by launch 0. -/
def owned : State := s0.setCore 1023 { s0.coreAt 1023 with owner := [(0, 0)] }

theorem witness_VectorScratchpad :
    Alone (stateOf gEdge) gEdge
    ∧ Runs gEdge (.vlds fm) { reads := [1, 0] } ∧ Runs gEdge (.vsts fm) { reads := [1, 0] }
    ∧ gEdge.spadOffsets fm [4092, 0] = [(0, 4092)]
    ∧ (∀ i ∈ [Instr.vldp fmPeer, .vstp fmPeer], let fl : Flight := { entry := entryOf0 i [0, 0] }
       OnUnit (stateOf (gUnder fl)) 0 (gUnder fl) fl ∧ spadReady (stateOf (gUnder fl)) 0 (gUnder fl) fmPeer 0 = true)
    ∧ (peerKey owned g0 0x3FF00FFC 4) = some (1023, 4092) ∧ (peerKey owned g0 0x3FF01000 4) = none :=
  ⟨alone_gEdge, by simp only [Runs, Passes]; decide +kernel, by simp only [Runs, Passes]; decide +kernel, by decide +kernel,
    by simp only [OnUnit]; decide +kernel, by decide +kernel, by decide +kernel⟩

/-! Tables, passes, copies. -/

/-- A load of the attribute table from 0x2000, and one from an address that is no multiple of 64. -/
def eAtt : VEntry := entryOf0 (.ldattAtt (sr 0 0 1)) [0x2000]
def eAttOdd : VEntry := entryOf0 (.ldattAtt (sr 0x20 0 1)) [0x2000]
/-- The end of a probe: how many accesses, or a trap. -/
def Probed.count : Probed → Option Nat
  | .ok _ l => some l.length
  | _ => none

theorem witness_RankTables :
    (stateOf (gHead eAtt)).grp 0 = some (gHead eAtt) ∧ tableWord eAtt.instr = some (true, sr 0 0 1)
    ∧ (gHead eAtt).hazard eAtt.instr = false ∧ (gHead eAtt).exitTrap eAtt = none ∧ (tableAddr (sr 0 0 1) [0x2000]).toNat % 64 = 0
    ∧ (tableAddr (sr 0x20 0 1) [0x2001]).toNat % 64 ≠ 0
    ∧ Probed.count (probePieces 0 (mapped (stateOf (gHead eAtt))) [] [] (tablePieces 0x2000)) = some 64
    ∧ (gUnder (under (.ldattRec (sr 0 0 1)) [acc0])).readAhead = [] ∧ ({ under (.ldattRec (sr 0 0 1)) [acc0] with vals := [] } : Flight).vals = []
    ∧ (under (.ldattRec (sr 0 0 1)) [acc0]).phase = .accesses ∧ (List.replicate 64 0).length = 64 := by
  and_intros <;> decide +kernel

/-- A product of 16-bit floats with its descriptors: A at 0x4000, B at 0x8000. -/
def fMul : FX := { fx 0 12 with sb := 15, afmt := 9, bfmt := 9 }
def pMul : Pass := ⟨fMul, .mul, false⟩
def opsMul : List W64 := [0x4000, 64, 0, 0x8000, 64, 0, 0, 0, 0]
def eMul : VEntry := entryOf0 (.mxmul fMul) opsMul
def probed (e : VEntry) : VEntry := { e with probe := some [acc0] }
/-- The same group with nothing let through. -/
def gIdle : Grp := { gHead eMul with m := [] }
/-- An entry of the reservation table of cluster 0. -/
def reserved0 (ready : Bool) (ends : Nat) : MatrixEntry := { gtag := 0, id := 0, prio := 0, entered := 0, ready := ready, ends := ends }
def tabled (g : Grp) (en : MatrixEntry) (granted : Bool) : State :=
  (stateOf g).setCluster 0 { (stateOf g).clusterAt 0 with table := [en], granted := if granted then some en else none }
/-- A list of a rank pass of one entry. -/
def fRk : FX := { fx 0 12 with sb := 15, afmt := 9, bfmt := 9 }
def pRk : Pass := ⟨fRk, .rank, false⟩
def opsRk : List W64 := [0x4000, 0x100000002, 0, 0x8000, 64, 4, 0, 0, 0]

/-- The port of core 0 has no token left. -/
def poor (s : State) : State := { s.setCore 0 { s.coreAt 0 with bucket := 0 } with bandwidth := 0x8000000000018000 }

theorem witness_MatrixPass :
    (stateOf (gHead eMul)).grp 0 = some (gHead eMul) ∧ passOf eMul.instr = some pMul ∧ (gHead eMul).hazard eMul.instr = false
    ∧ ({ gHead eMul with vl := 129 } : Grp).passTrap pMul opsMul = some (illegal 4)
    ∧ gIdle.passTrap pMul opsMul = none ∧ pMul.live gIdle = false
    ∧ (gHead eMul).passTrap pMul opsMul = none ∧ pMul.live (gHead eMul) = true ∧ pMul.kind ≠ .rank
    ∧ (Probed.count (probePieces 0 (mapped (stateOf (gHead eMul))) [] [] (pMul.pieces (gHead eMul) opsMul []))).isSome = true
    ∧ (Probed.count (probePieces 0 (stateOf (gHead eMul)) [] [] (pMul.pieces (gHead eMul) opsMul []))) = none
    ∧ (stateOf (gHead (probed eMul))).groups.all (fun q => q.1 = 0) = true
    ∧ ((stateOf (gHead (probed eMul))).clusterAt 0).table = []
    ∧ ((tabled (gHead (probed eMul)) (reserved0 false 0) false).clusterAt 0).table = [reserved0 false 0]
    ∧ (gHead (probed eMul)).behind 0 = some (probed eMul, [acc0]) ∧ (gHead (probed eMul)).writesDone 0 = true
    ∧ (gHead (probed eMul)).acquireOlder 0 = false
    ∧ (let s := tabled (gHead (probed eMul)) (reserved0 false 0) false
       let pins := s.sectorsOf [acc0]
       s.pinRoom 0 (reserved0 false 0) pins = true
         ∧ s.hasTokens 0 (pins.filter (fun x => !(reserved0 false 0).pins.contains x)).length = true)
    ∧ ((tabled (gHead (probed eMul)) (reserved0 true 0) false).clusterAt 0).granted = none
    ∧ ((tabled (gHead (probed eMul)) (reserved0 true 16) true).clusterAt 0).granted = some (reserved0 true 16)
    ∧ (State.reset.cycle < (reserved0 true 16).ends ∧ (reserved0 true 0).ends ≤ State.reset.cycle)
    ∧ (let fl : Flight := { entry := probed eMul, phase := .matrix, todo := [acc0], got := [(0, 0)] }
       (tabled (gUnder fl) (reserved0 true 0) true).grp 0 = some (gUnder fl) ∧ fl.entry.id = (reserved0 true 0).id
         ∧ (reserved0 true 0).early = [] ∧ (gUnder fl).readAhead = [])
    ∧ pRk.live (gHead (entryOf0 (.rkacc fRk) opsRk)) = true ∧ isIntCode 0 = true
    ∧ (let e := entryOf0 (.rkacc fRk) opsRk
       let g := gHead e
       let s := mapped (stateOf g)
       let a := strided (descWord opsRk 0 0) 0 (strideAt (descWord opsRk 0 1) 0) 0
       g.passTrap pRk opsRk = none ∧ pRk.kind = .rank ∧ nextListEntry (lenOf opsRk) e.reads (pRk.rows g) = some (0, 0)
         ∧ g.writesDone 0 = true ∧ g.acquireOlder 0 = false ∧ (translate s 0 a .read).1 = .ok leaf0 (.phys 0x4000)
         ∧ Reached.value (readAt s (g.agent 0 unitMatrix 0 e.pc e.hdr) a 2 (.phys 0x4000)) = some 0 ∧ g.readAhead = []
         ∧ s.hasTokens 0 1 = true ∧ (poor s).hasTokens 0 1 = false ∧ ((poor s).coreAt 0).asking = false) := by
  and_intros <;> decide +kernel

/-- A copy of 4 bytes from 0x5000 to 0x6000, its descriptor at 0x3000. -/
def eCopy : VEntry := entryOf0 (.copy (fc 1 2 0 0 0 0)) [0x3000, 0]
def eTcopy : VEntry := entryOf0 (.tcopy { fc 1 2 4 0 0 0 with sc := 3 }) [0x3000, 0, 0x3800, 0]
def desc0 : CopyDesc :=
  { src := 0x5000, dst := 0x6000, len0 := 4, cnt1 := 1, cnt2 := 1, dsp := false, ssp := false, dim := 1, sstr1 := 0, sstr2 := 0
    dstr1 := 0, dstr2 := 0 }
def job0 : CopyJob := jobOf 0 (gHead eCopy) eCopy false (fc 1 2 0 0 0 0)
def jobRead (d : CopyDesc) : CopyJob := { job0 with read := some d }
def copying (js : List CopyJob) : State :=
  let s := mapped (stateOf { g0 with flights := [{ entry := eCopy, phase := .post }] })
  (s.setCore 0 { s.coreAt 0 with copies := js })
/-- How a run of bytes ends. -/
def CopyRun.all? : CopyRun → Bool
  | .all _ _ => true
  | _ => false
def CopyRun.fault? : CopyRun → Option Nat
  | .fault _ _ n _ _ => some n
  | _ => none
/-- How the reading of a trigger ends: 0 met, 1 unmet, 2 failed. -/
def TriggerRead.num : TriggerRead → Option Nat
  | .met _ => some 0
  | .unmet _ => some 1
  | .failed _ _ => some 2
  | _ => none

theorem witness_Copies :
    (stateOf (gHead eCopy)).grp 0 = some (gHead eCopy) ∧ (gHead eCopy).hazard eCopy.instr = false
    ∧ (gHead eTcopy).hazard eTcopy.instr = false
    ∧ ((stateOf (gHead eCopy)).coreAt 0).queueRoom 0 = true ∧ ((stateOf (gHead eTcopy)).coreAt 0).armRoom = true
    ∧ ((copying (List.replicate 32 job0)).coreAt 0).queueRoom 0 = false
    ∧ ((copying [job0]).coreAt 0).copies = [job0] ∧ job0.read = none ∧ job0.failed = none ∧ job0.trigger = none
    ∧ job0.desc.toNat % 64 = 0 ∧ (copying [job0]).hasTokens 0 2 = true ∧ ReadMany.dwords (readDwords (copying [job0]) (job0.agent unitTable) 0x3000 8) = some (List.replicate 8 0)
    ∧ job0.badDesc (List.replicate 8 0) = true ∧ job0.badDesc [0x5000, 0x6000, 0x100000004, 0x100000001, 0, 0, 0, 0] = false
    ∧ ((copying [jobRead desc0]).coreAt 0).headCopy 0 = some (jobRead desc0) ∧ copyMayRead (copying [jobRead desc0]) (jobRead desc0) = true
    ∧ CopyRun.all? (moveBytes 0 desc0 false (copying [jobRead desc0]) (jobRead desc0) 0 4) = true
    ∧ (let d : CopyDesc := { desc0 with dst := 0x1FFFFFFE }
       CopyRun.fault? (moveBytes 0 d false (copying [jobRead d]) (jobRead d) 0 4) = some 2
         ∧ CopyRun.all? (moveBytes 0 d true (copying [jobRead d]) (jobRead d) 0 1) = true)
    ∧ (let d : CopyDesc := { desc0 with ssp := true, dsp := true, src := 0, dst := 4092 }
       d.len0 ≠ 0 ∧ (jobRead d).early = [] ∧ (jobRead d).written = 0 ∧ (jobRead d).buffer = [] ∧ ∀ i < d.len0, ∀ k < d.len0, d.src.toNat + i ≠ d.dst.toNat + k)
    ∧ (translate (mapped s0) 0 0x3000 .atomic).1 = .ok leaf0 (.phys 0x3000)
    ∧ job0.counter = 0 ∧ job0.feed = false ∧ (jobRead desc0).closed = false ∧ job0.met = false
    ∧ TriggerRead.num (readTrigger (copying []) job0 0x3800 0) = some 0
    ∧ TriggerRead.num (readTrigger (copying []) job0 0x3800 1) = some 1
    ∧ TriggerRead.num (readTrigger (copying []) job0 0x3801 0) = some 2 := by
  and_intros <;> decide +kernel

/-! Forms and collectives. -/

/-- A block with `nin` inputs whose result is 0, kept on core 0 under number 1. -/
def block0 (nin : Nat) : Block := { nin := nin, nout := 1, ntmp := 0, attrs := 7, pair := false, ident := 0, words := [] }
/-- A `reduce` of two elements at 0x3000. -/
def eRed : VEntry := entryOf0 (.reduce (ff 0 0)) [0x3000, 0x4000000000000002, 4, 0, 0, 0, 0, 0, 0, 0, 0, 0]
/-- The same with a reserved bit in its specification. -/
def eRedBad : VEntry := entryOf0 (.reduce (ff 0 0)) [0x3000, 0x4000000100000002, 4, 0, 0, 0, 0, 0, 0, 0, 0, 0]
def forming (g : Grp) (nin : Nat) : State :=
  let s := mapped (stateOf g)
  s.setCore 0 { s.coreAt 0 with blocks := [{ launch := 0, lbid := 1, block := block0 nin }] }
def BlockRead.block : BlockRead → Option Block
  | .ok _ b => some b
  | _ => none
def BlockRead.trap? : BlockRead → Bool
  | .trap _ _ => true
  | _ => false
/-- The element count that FORM_CHECK gives the form at the head of the queue. -/
def countedBy (s : State) : Option Nat :=
  match execFormCheck 0 s with
  | .next t => ((t.grp 0).bind Grp.form).map FormRun.n
  | _ => none

theorem witness_FormElementCount :
    (forming (gHead eRed) 2).grp 0 = some (gHead eRed) ∧ formOf eRed.instr = some (.reduce, ff 0 0) ∧ (gHead eRed).form = none
    ∧ countedBy (forming (gHead eRed) 2) = some 2 := by
  and_intros <;> decide +kernel

def run2 : FormRun := { outer := block0 2, n := 2 }
def gForm (e : VEntry) : Grp := { gHead e with form := some run2 }
def Planned.steps : Planned → Option (List FormStep)
  | .ok _ l _ => some l
  | _ => none
/-- A flight of a form that has nothing left to write, and one word. -/
def flForm (a : List Access) : Flight := { under (.reduce (ff 0 0)) a with phase := .formWrites }
/-- `fbar` with COND on s1 or s0, before a form word or before none. -/
def fFbar (sa : BitVec 6) (ext : BitVec 12) : FS := { sd := 0, sa := sa, sb := 0, imm := 0, ext := ext, cf := 0 }
def gFbar : Grp := { g0 with clause := [0x2000000000000000, (fFbar 0 1).toWord 0x57 0, (ff 0 0).toWord 0x52 0] }

theorem witness_Forms :
    (forming (gHead eRed) 2).grp 0 = some (gHead eRed) ∧ formOf eRed.instr = some (.reduce, ff 0 0) ∧ eRed.inner = none
    ∧ (gHead eRed).acquireOlder 0 = false
    ∧ BlockRead.trap? (fetchBlock (stateOf (gHead eRed)) 0 (gHead eRed) eRed 1) = true
    ∧ BlockRead.block (fetchBlock (forming (gHead eRed) 2) 0 (gHead eRed) eRed 1) = some (block0 2)
    ∧ blockMisfit .reduce (ff 0 0) (block0 3) false = true ∧ blockMisfit .reduce (ff 0 0) (block0 2) false = false
    ∧ specsBad (gHead eRedBad) .reduce (ff 0 0) (block0 2) eRedBad.ops false = true
    ∧ specsBad (gHead eRed) .reduce (ff 0 0) (block0 2) eRed.ops false = false ∧ feedStreams (ff 0 0) eRed.ops = []
    ∧ (gForm eRed).formHazard eRed .reduce (ff 0 0) run2 = false
    ∧ (forming (gForm eRed) 2).hasTokens 0 (planTokens [] [] []) = true
    ∧ (gForm eRed).headForm = some (eRed, .reduce, ff 0 0) ∧ (gForm eRed).ownWrites 0 = none ∧ run2.plan = none
    ∧ (Planned.steps (planGroup ⟨0, gForm eRed, eRed, none, false⟩ (forming (gForm eRed) 2) run2 .reduce (ff 0 0))).isSome = true
    ∧ (Planned.steps (planGroup ⟨0, gForm eRed, eRed, none, false⟩ (stateOf (gForm eRed)) run2 .reduce (ff 0 0))) = none
    ∧ (let g := gUnder (flForm [acc0])
       (stateOf g).grp 0 = some g ∧ g.vq = [] ∧ g.flightOverlap 0 acc0 = false ∧ formOf (flForm [acc0]).entry.instr = some (.reduce, ff 0 0))
    ∧ (Instr.fbar (fFbar 1 1)).check.reasons = [] ∧ g0.nextWord.any isFormWord = false ∧ (fFbar 0 1).ext.getLsbD 0 = true
    ∧ Passes gFbar (.fbar (fFbar 0 1)) ∧ gFbar.nextWord.any isFormWord = true ∧ Passes g0 (.fbar (fFbar 0 2))
    ∧ gFbar.blocked = false ∧ gFbar.anyPending [0, 1] = false ∧ gFbar.vq = [] ∧ gFbar.acquiring = false := by
  simp only [Passes]; and_intros <;> decide +kernel

/-- A post of a collective of two members, this die of rank 1: its record at 0x2000, its member table at 0x2100. -/
def eColl : VEntry := entryOf0 (.coll { fc 1 2 4 0 0 0 with sc := 3 }) [0x2000, 0x2100, 0, 0]
def coll0 (lnr : W64) : Coll :=
  { die := 0, gtag := 0, id := 0, launch := 0, ordinal := 0, part := 0, pc := 0x1008, hdr := 0x1000, lnr := lnr, table := 0x2100
    counter := 0, inst := 0, btbase := 0, btcount := 0, flags := [] }
def collective (cs : List Coll) : State :=
  { mapped (stateOf (gHead eColl)) with
    mem := [(0x2000, 0x21), (0x2014, 1), (0x2018, 1), (0x204C, 1), (0x20B0, 4), (0x2100, 2), (0x2110, 1), (0x200007, 0x80), (0x20000A, 0x30),
      (0x300000, 0x38), (0x300007, 0xC8)]
    colls := cs }
/-- How the reading of a post ends: its rank and members, or its reason. -/
def CollRead.rank? : CollRead → Option (Nat × Nat)
  | .ok _ c => some (c.rank, c.members.length)
  | _ => none
def CollRead.reason? : CollRead → Option Nat
  | .bad _ n _ => some n
  | _ => none
/-- Rank 0's side of an instance, with the signatures of `xs`. -/
def sig0 (len : Nat) : Signature := ⟨0, 1, 8, len⟩
def coord0 (xs : List (Nat × Signature)) (going : Bool) : Coord :=
  { die := 0, collid := 5, inst := 0, nmem := 2, members := [(0, 0), (1, 0)], sigs := xs, going := going }
/-- Messages and transfers between device 1 and this one. -/
def msg0 : CollMsg := { src := 1, dst := 0, collid := 5, srank := 0, drank := 1, ddie := 0, inst := 0, nmem := 2 }
def member (p : CollPhase) : Coll :=
  { coll0 0x2000 with phase := p, collid := 5, members := [(1, 0), (0, 0)], rank := 1
                      tmpl := some { peers := [(0, 0, 1, 1)], srcBase := 0, dstBase := 0, srcStrides := [0], dstStrides := [0], len := 4,
                                     dstRank := 1, opc := 1, typ := 8, lbid := 0 } }
def transfer0 (first : Nat) : Transfer :=
  { src := 1, dst := 0, addr := 0, collid := 5, srank := 0, drank := 1, ddie := 0, inst := 0, first := first, count := 1, nmem := 2
    sig := sig0 4, data := [0, 0, 0, 0] }

theorem witness_Collectives :
    (stateOf (gHead eColl)).grp 0 = some (gHead eColl) ∧ (gHead eColl).hazard eColl.instr = false
    ∧ (gHead eColl).quietBefore 0 (collScope { fc 1 2 4 0 0 0 with sc := 3 }) = true
    ∧ ((collective (List.replicate 15 (coll0 0x2000))).collsOf 0).length < 16
    ∧ 16 ≤ ((collective (List.replicate 16 (coll0 0x2000))).collsOf 0).length
    ∧ (collective [coll0 0x2000]).collsOf 0 = [coll0 0x2000] ∧ (coll0 0x2000).phase = .posted
    ∧ CollRead.reason? (readColl (collective [coll0 0x2040]) (coll0 0x2040)) = some 1
    ∧ CollRead.rank? (readColl (collective [coll0 0x2000]) (coll0 0x2000)) = some (1, 2)
    ∧ (collective []).root.failedStage = 0 ∧ (collective []).postedColls = [] ∧ msg0.dst = (collective []).fabric.device ∧ msg0.reserved = false
    ∧ (match ((collective []).window 1).look 0 with | .fresh => true | _ => false) = true
    ∧ (takeMessage (collective []) 2 msg0).isNone = true ∧ (takeMessage (collective [member .signed]) 2 msg0).isSome = true
    ∧ (collective [member .signed]).instance_ 0 5 0 2 = some (member .signed)
    ∧ (collective [member .sent]).instance_ 0 5 0 2 = some (member .sent)
    ∧ ([(0, sig0 4), (1, sig0 8)] : List (Nat × Signature)).any (fun q => decide (q.2 ≠ sig0 4)) = true
    ∧ ([(0, sig0 4), (1, sig0 4)] : List (Nat × Signature)).any (fun q => decide (q.2 ≠ sig0 4)) = false
    ∧ (coord0 [(0, sig0 4), (1, sig0 4)] false).sigs.length = (coord0 [] false).nmem
    ∧ (coord0 [] false).since + 2 ^ 30 ≤ ({ State.reset with cycle := 2 ^ 30, coords := [coord0 [] false] } : State).cycle
    ∧ (transfer0 0).dst = (collective []).fabric.device ∧ (takeTransfer (collective []) (transfer0 0)).isNone = true
    ∧ (takeTransfer (collective [member .sending]) (transfer0 0)).isSome = true
    ∧ transfer0 0 ≠ transfer0 1 ∧ mayCombine (transfer0 0) (transfer0 1) = true ∧ mayCombine (transfer0 0) (transfer0 2) = false
    ∧ typeWidth 0 = 8 := by
  and_intros <;> decide +kernel

theorem witness_StepKeepsMemoryForm : MemoryForm State.reset := ⟨rfl, rfl, rfl⟩

/-- A block that meets the premises on the fold, with every attribute but IDENT. -/
theorem witness_Forms_fold :
    let op (x y : Nat) : Nat := ((block0 0).combine x y).1
    (∀ x y, op x y = 0) ∧ (∀ x y z, op (op x y) z = op x (op y z)) ∧ (∀ x y, op x y = op y x) ∧ bitOf 3 2 = false
      ∧ bitOf 3 3 = false ∧ bitOf 2 0 = false ∧ bitOf 2 2 = false ∧ bitOf 2 3 = false :=
  ⟨fun _ _ => rfl, fun _ _ _ => rfl, fun _ _ => rfl, rfl, rfl, rfl, rfl, rfl⟩

theorem witness_EncodingRoundTrip :
    (Instr.addImm { fs with sb := 0, imm := 0xFFFFF }).encode = some 0x0200C103FFFFC000
    ∧ decodeWord 0x0200C103FFFFC000 = .ok (.addImm { fs with sb := 0, imm := 0xFFFFF }) :=
  ⟨by decide +kernel, by decide +kernel⟩

theorem witness_WordsWithoutEffect :
    Issues s0 g0 (.nop { zero := 0, cf := 0 }) [] ∧ Issues s0 g0 (.prefetch (word 0 0 0)) [1] :=
  ⟨issues_of_ready (by decide +kernel), issues_of_ready (by decide +kernel)⟩

end Sys2Proof.Tests
end

