-- ==== Sys2Proof/Tests/Slice0.lean ====
section
/-!
SUPPORT. Tests of the checks, of the decoder and of single words. Expected words and values come from the manual: its worked
examples, or its tables read by hand; the place is named at each.
-/
namespace Sys2Proof.Tests

open Machine Safety
set_option Elab.async false

/-! An ill-formed term for each check: the least reason (R67). -/

/-- The reason that a word's checks give; none for a well-formed one. -/
def reason (i : Instr) : Option Nat := (g0.wordTrap i.check .user (match i with | .gbar _ => true | _ => false)).map TrapInfo.detail

theorem test_wellFormed_scalar :
    reason (.add { fs with imm := 1 }) = some 3 ∧ reason (.clz fs) = some 3 ∧ reason (.sllImm { fs with sb := 0, imm := 64 }) = some 4
    ∧ reason (.addImm { fs with sb := 0, cf := 1 }) = some 6 ∧ reason (.fadd { fs with ext := 11 }) = some 7
    ∧ reason (.fadd { fs with ext := 0x68 }) = some 4 ∧ reason (.li { sd := 1, sa := 1, imm := 0, ext := 0, cf := 0 }) = some 3
    ∧ reason (.br { sa := 0, sb := 0, cond := 7, off := 0, hint := 0, cf := 0 }) = some 4
    ∧ reason (.br { sa := 1, sb := 0, cond := 0, off := 0, hint := 0, cf := 0 }) = some 3
    ∧ reason (.call { sa := 1, sb := 1, cond := 0, off := 0, hint := 0, cf := 0 }) = some 3
    ∧ reason (.nop { zero := 1, cf := 0 }) = some 3
    ∧ reason (.ldI8 (word 3 0 8)) = some 4 ∧ reason (.stN8 (word 0 2 4)) = some 4 ∧ reason (.aadd (word 3 2 1)) = some 4 := by
  decide +kernel

theorem test_wellFormed_vector :
    reason (.vadd (fv 13)) = some 7 ∧ reason (.vadd { fv 2 with vc := 1 }) = some 3 ∧ reason (.vadd { fv 2 with cf := 1 }) = some 6
    ∧ reason (.vffma { fv 8 3 4 with rm := 6 }) = some 4 ∧ reason (.vcvt (fv 0xE0 0)) = some 7
    ∧ reason (.vsetvl { sd := 3, sa := 2, imm := 15, ext := 0, cf := 0 }) = some 4
    ∧ reason (.vld { fm with vi := 1 }) = some 3 ∧ reason (.vld { fm with ew := 5 }) = some 4
    ∧ reason (.vldp { fmPeer with sb := 0 }) = some 4 ∧ reason (.rld (fm 63)) = some 4 := by
  decide +kernel

theorem test_wellFormed_engines :
    reason (.mxmul { fMul with bfmt := 8 }) = some 8 ∧ reason (.mxmul { fMul with sa := 62 }) = some 4
    ∧ reason (.mxbp { fMul with afmt := 0, bfmt := 15, ext := 0 }) = some 4 ∧ reason (.rkacc { fRk with afmt := 8 }) = some 8
    ∧ reason (.mxext { fx 0 with afmt := 8, bfmt := 9 }) = some 7 ∧ reason (.mxclr { fx 0 with shape := 1 }) = some 3
    ∧ reason (.mxmovIn { fx 0 with sa := 1 }) = some 3
    ∧ reason (.map { ff 0 0x3C0 with sa := 0 }) = some 4 ∧ reason (.map (ff 15 0x3C0)) = some 3
    ∧ reason (.copy (fc 1 2 0 0 1 0)) = some 4 ∧ reason (.launch (fc 1 2 3 0 0 0)) = some 3
    ∧ reason (.fence (fc 0 0 0 0 0 1)) = some 4 ∧ reason (.bar (fc 1 0 0 0 0 3)) = some 4
    ∧ reason (.gbar (fc 0 0 0 0 0 1)) = some 4 ∧ reason (.mwait (word 3 2 3)) = some 4
    ∧ reason (.getsr (sr 0x008 3 0)) = some 4 ∧ reason (.lexport (word 3 1 0)) = some 3
    ∧ reason (.vadd { fv 2 with vd := 31 }) = none ∧ ({ g0 with nreg := 31 } : Grp).wordTrap (Instr.vadd { fv 2 with vd := 31 }).check .user false
      = some (illegal 5) := by
  decide +kernel

/-! Words that the manual writes out, by the chapter that has them. -/

/-- Scalar words: the control thread's chapter (R155, its clause of stores and loads), 21 (`aadd`). -/
theorem test_decode_scalar :
    decodeWord 0x0200C303FFFFC000 = .ok (.addImm { sd := 3, sa := 3, sb := 0, imm := 0xFFFFF, ext := 0, cf := 0 })
    ∧ decodeWord 0x02028A0000020000 = .ok (.addImm { sd := 10, sa := 10, sb := 0, imm := 8, ext := 0, cf := 0 })
    ∧ decodeWord 0x22300C3800000000 = .ok (.stN64 { sd := 0, sa := 12, sb := 14, imm := 0, ext := 0, cf := 0 })
    ∧ decodeWord 0x2032CD0000000000 = .ok (.ldI64 { sd := 11, sa := 13, sb := 0, imm := 0, ext := 0, cf := 0 })
    ∧ decodeWord 0x2606DC680000000C = .ok (.aadd { sd := 27, sa := 28, sb := 26, imm := 0, ext := 3, cf := 0 })
    ∧ decodeWord 0 = .ok (.add { sd := 0, sa := 0, sb := 0, imm := 0, ext := 0, cf := 0 }) := by
  decide +kernel

/-- Control transfer: the countdown loop of the control thread's chapter (R160, R165). -/
theorem test_decode_control :
    decodeWord 0x3000C02000000004 = .ok (.br { sa := 3, sb := 0, cond := 2, off := 0, hint := 1, cf := 0 })
    ∧ decodeWord 0x1600000000000000 = .ok (.nop { zero := 0, cf := 0 }) := by
  decide +kernel

/-- Undecodable words (R67): the three of the opcode map's examples. -/
theorem test_decode_reserved :
    decodeWord 0xFFFFFFFFFFFFFFFF = .error .reservedOpcode ∧ decodeWord 0x1800000000000000 = .error .reservedOpcode
    ∧ decodeWord 0xEA80000000000000 = .error .unassignedFunction
    ∧ decodeWord 0xEA00000000000001 = .ok (.lexport { sd := 0, sa := 0, sb := 0, imm := 0, ext := 0, cf := 1 }) := by
  decide +kernel

/-- Vector arithmetic, formats and cross-element words: chapters 3, 8, 9, 21. -/
theorem test_decode_vector :
    decodeWord 0x4A0204435A000020 = .ok (.vffma { vd := 4, va := 1, vb := 2, vc := 3, mreg := 2, xm := 1, xmd := 5, rm := 0, sat := 0,
                                                  ew := 0, imm := 8, cf := 0 })
    ∧ decodeWord 0x6A024A0000001B00 = .ok (.vsetvl { sd := 9, sa := 10, imm := 0x1B, ext := 0, cf := 0 })
    ∧ decodeWord 0x6C05100000000000 = .ok (.vbpack { fv 0 0 with vd := 10, va := 4 })
    ∧ decodeWord 0x6C1628000000C000 = .ok (.vbunpack { fv 0x3000 0 with vd := 12, va := 10 })
    ∧ decodeWord 0x76000D4000000021 = .ok (.vredsum { fvs 8 3 20 with vd := 0, cf := 1 })
    ∧ decodeWord 0x7802906000000008 = .ok (.vsegscanAdd { fv 2 3 with vd := 5, va := 4 })
    ∧ decodeWord 0x7A04084000000018 = .ok (.vcompress { fv 6 2 with vd := 8, va := 2 })
    ∧ decodeWord 0xB81B0800000000E4 = .ok (.vrankMag { fv 0x39 0 with vd := 22, va := 2 }) := by
  decide +kernel

/-- Vector memory and remote words: chapters 15, 20, 21. -/
theorem test_decode_vector_memory :
    decodeWord 0x8010D00000018200 = .ok (.vst { fm 40 with vd := 1, ew := 3, imm := 128 })
    ∧ decodeWord 0x86329800C021C000 = .ok (.vaor { fm 12 with vd := 5, vi := 3, am := 2, ew := 3, imm := 0x1000 })
    ∧ decodeWord 0x9202280000018001 = .ok (.rst { fm 20 with vd := 4, ew := 3, cf := 1 })
    ∧ decodeWord 0x920C3C0008010001 = .ok (.rst { fm 30 with vd := 24, mreg := 1, ew := 2, cf := 1 }) := by
  decide +kernel

/-- Forms and matrix words: chapters 20, 21. -/
theorem test_decode_engines :
    decodeWord 0xA60003280009E381 = .ok (.scan { lbid := 3, sa := 10, sb := 0, sc := 0, vd := 4, attr := 15, nest := 0, ext := 0xE0, cf := 1 })
    ∧ decodeWord 0xA20003A0E0000381 = .ok (.zip { lbid := 3, sa := 40, sb := 14, sc := 0, vd := 0, attr := 0, nest := 0, ext := 0xE0, cf := 1 })
    ∧ decodeWord 0xB011461C00BB0001 = .ok (.mxmulZ { acc := 0, sa := 20, sb := 24, sc := 28, mreg := 0, shape := 0, afmt := 11, bfmt := 11,
                                                     spar := 0, ext := 0, cf := 1 })
    ∧ decodeWord 0xB21608C0000F001D = .ok (.mxbpZ { acc := 1, sa := 32, sb := 35, sc := 0, mreg := 0, shape := 0, afmt := 0, bfmt := 15,
                                                    spar := 0, ext := 7, cf := 1 })
    ∧ decodeWord 0xB61020001F000000 = .ok (.mxmovOut { fx 31 2 with acc := 0 })
    ∧ decodeWord 0xBC01460000990001 = .ok (.rkacc { acc := 0, sa := 20, sb := 24, sc := 0, mreg := 0, shape := 0, afmt := 9, bfmt := 9,
                                                    spar := 0, ext := 0, cf := 1 }) := by
  decide +kernel

/-- Copies, collectives, launches, synchronising: chapters 5, 17, 20, 21, and the form barrier of chapter 10. -/
theorem test_decode_asynchronous :
    decodeWord 0xC005000000000004 = .ok (.copy { fc 20 0 0 0 0 0 with ext := 1 })
    ∧ decodeWord 0xC406196DC0000A00 = .ok (.coll { fc 24 25 28 0 2 4 with sc := 27 })
    ∧ decodeWord 0xC602800090000000 = .ok (.launch (fc 10 0 9 0 0 0))
    ∧ decodeWord 0xD000000000000B00 = .ok (.fence (fc 0 0 0 0 2 6))
    ∧ decodeWord 0xD400000000000200 = .ok (.gbar (fc 0 0 0 0 0 4))
    ∧ decodeWord 0xD60005000000000C = .ok (.fbar { sd := 0, sa := 5, sb := 0, imm := 0, ext := 3, cf := 0 }) := by
  decide +kernel

/-- System words: chapters 1, 15, 18 (R29, R367, R433, R434). -/
theorem test_decode_system :
    decodeWord 0xE6028B0000000800 = .ok (.getcap { sd := 10, sa := 11, imm := 8, ext := 0, cf := 0 })
    ∧ decodeWord 0xE200000000000000 = .ok (.eret { zero := 0, cf := 0 })
    ∧ decodeWord 0xEA224A0000000000 = .ok (.lreclaim { sd := 9, sa := 10, sb := 0, imm := 0, ext := 0, cf := 0 }) := by
  decide +kernel

/-- The host's interface to the decoder: bits above those given are zero. -/
theorem test_decodeTableWord :
    decodeTableWord 64 0x0200C303FFFFC000 = some (.addImm { sd := 3, sa := 3, sb := 0, imm := 0xFFFFF, ext := 0, cf := 0 })
    ∧ decodeTableWord 64 0xFFFFFFFFFFFFFFFF = none := by
  decide +kernel

/-! Single words: what the register or the vector holds afterwards. -/

/-- The group after the instruction `i` in a device where it is alone. -/
noncomputable def afterInstr (g : Grp) (i : Instr) : Option Grp :=
  match exec i (stateOf g) with
  | .next t => t.grp 0
  | _ => none

/-- The same for a vector word: it enters the queue, commits, and starts on the vector unit. -/
noncomputable def afterVector (g : Grp) (i : Instr) : Option Grp :=
  match exec i (stateOf g) with
  | .next a =>
    (match exec (.commit 0) a with
     | .next b => (match exec (.vectorIssue 0) b with | .next t => t.grp 0 | _ => none)
     | _ => none)
  | _ => none

/-- `g0` with s3 = `x`. -/
def g3 (x : W64) : Grp := { g0 with s := [(3, x)] }

/-- The countdown loop's word (R155), and the wrap at zero. -/
theorem test_add_counts_down :
    (afterInstr (g3 3) (.addImm { fs with sa := 3, sb := 0, imm := 0xFFFFF })).map (fun g => (g.reg 3, g.pc)) = some (2, 0x1010)
    ∧ (afterInstr (g3 0) (.addImm { fs with sa := 3, sb := 0, imm := 0xFFFFF })).map (fun g => g.reg 3) = some 0xFFFFFFFFFFFFFFFF := by
  decide +kernel

/-- Division by zero (R155), s2 being zero. -/
theorem test_div_by_zero :
    (afterInstr (g3 7) (.div { fs with sa := 3 })).map (fun g => g.reg 3) = some 0xFFFFFFFFFFFFFFFF
    ∧ (afterInstr (g3 7) (.rem { fs with sa := 3 })).map (fun g => g.reg 3) = some 7 := by
  decide +kernel

/-- `vsetvl s9, s10, fmt=f8e4, blk=32` at declared VL 256 with s10 = 40: the example after R182. -/
theorem test_vsetvl :
    (afterVector { g0 with regWords := 256, s := [(10, 40)] } (.vsetvl { sd := 9, sa := 10, imm := 0x1B, ext := 0, cf := 0 })).map
      (fun g => (g.reg 9, g.vl, g.vtail, g.vconf.toNat / 4 % 16, g.vconf.toNat / 1024 % 8)) = some (64, 64, 40, 11, 1) := by
  decide +kernel

/-- `vadd.i8 v2, v2, 100, sat` on an element that holds 90: 127 with SI, and −66 without `sat` (chapter 9). -/
theorem test_vadd_saturates :
    (afterVector { g0 with v := [(2 * 64, 90)] } (.vaddImm { fv (100 * 16) 0 with vd := 2, sat := 1 })).map
      (fun g => (g.elem 2 8 0, g.xflags)) = some (127, 0x20)
    ∧ (afterVector { g0 with v := [(2 * 64, 90)] } (.vaddImm { fv (100 * 16) 0 with vd := 2 })).map
      (fun g => (toSigned 8 (g.elem 2 8 0), g.xflags)) = some (-66, 0) := by
  decide +kernel

/-- The ragged rows at the end of chapter 9: v5 of the scan, v6 of the reduction. -/
def gRagged : Grp :=
  { g0 with
    vl := 8, vtail := 8, m := [(0, 0xFF), (3, 0x29)]
    v := [(4 * 64, 3), (4 * 64 + 1, 1), (4 * 64 + 2, 4), (4 * 64 + 3, 1), (4 * 64 + 4, 5), (4 * 64 + 5, 9), (4 * 64 + 6, 2), (4 * 64 + 7, 6)] }

theorem test_segments :
    (afterVector gRagged (.vsegscanAdd { fv 2 3 with vd := 5, va := 4 })).map (fun g => (upTo 8).map (fun e => g.elem 5 32 e))
      = some [3, 4, 8, 1, 6, 9, 11, 17]
    ∧ (afterVector gRagged (.vsegredAdd { fv 2 3 with vd := 6, va := 4 })).map (fun g => (upTo 8).map (fun e => g.elem 6 32 e))
      = some [8, 0, 0, 6, 0, 17, 0, 0] := by
  decide +kernel

/-- `vbpack.i8 v10, v4, 0` at L = 256, VL 16, VTAIL 4 on −45, 100, 1, −128: byte 0 of the planes (the example after R193). -/
theorem test_vbpack :
    (afterVector { g0 with regWords := 256, vl := 16, vtail := 4, m := [(0, 0xFFFF)], v := [(4 * 256, 0x800164D3)] }
      (.vbpack { fv 0 0 with vd := 10, va := 4 })).map (fun g =>
        [g.elem 10 8 0, g.elem 10 8 256, g.elem 10 8 512, g.elem 10 8 768, g.elem 11 8 0, g.elem 11 8 256, g.elem 11 8 512, g.elem 11 8 768])
      = some [0x09, 0x03, 0x02, 0x01, 0x00, 0x02, 0x01, 0x05] := by
  decide +kernel

/-- A load sign-extends, once it has returned (R162): the byte 0x80 at 0x2000. -/
theorem test_load_sign_extends :
    (match exec (.ldI8 (word 3 0 0)) { mapped s0 with mem := (0x2000, 0x80) :: tables } with
     | .next a => (match exec (.scalarLoadReturn 0) a with | .next t => (t.grp 0).map (fun g => g.reg 3) | _ => none)
     | _ => none) = some 0xFFFFFFFFFFFFFF80 := by
  decide +kernel

/-- A trap word without a handler parks the group, at the next clause (R418, R433). -/
theorem test_trap_parks_without_handler :
    (afterInstr g0 (.trap (sr 5 0 0))).map (fun g => (g.run, g.pc)) = some (.parked 1, 0x1010) := by
  decide +kernel

/-- The same with a handler: TCAUSE holds cause 0x0A and detail 5, and the group is there at supervisor level (R417, R433). -/
theorem test_trap_enters_handler :
    (match exec (.trap (sr 5 0 0)) (handled s0) with
     | .next t => (t.grp 0).map (fun g => (g.tcause.toNat % 2 ^ 24, g.level, g.pc, g.tepc))
     | _ => none) = some (0x50A, .supervisor, 0x8000, 0x1010) := by
  decide +kernel

/-- The first step after reset with a word placed: `add s1, s0, 1`. -/
theorem test_step_from_reset :
    (match step (State.reset.withFetchWord 64 0x0200400000004000) with
     | .next t => (t.grp 0).map (fun g => g.reg 1)
     | _ => none) = some 1 := by
  decide +kernel

end Sys2Proof.Tests
end

/-! Proofs about the scalar integer words and the words that only advance (chapter 7). -/

/-! What the bit counts and the byte reversal of `Machine/Bits.lean` give, stated with `Nat.testBit`. -/
namespace Sys2Proof.Machine

theorem bitOf_eq_testBit (x i : Nat) : bitOf x i = x.testBit i := (Nat.testBit_eq_decide_div_mod_eq ..).symm

theorem leadingZeros_le (w x : Nat) : leadingZeros w x ≤ w := by
  induction w with
  | zero => rfl
  | succ w ih => rw [leadingZeros]; split <;> omega

theorem testBit_of_leadingZeros_le {w x k : Nat} (hk : w - leadingZeros w x ≤ k) (hw : k < w) : x.testBit k = false := by
  induction w with
  | zero => omega
  | succ w ih =>
    rw [leadingZeros, bitOf_eq_testBit] at hk
    split at hk
    · omega
    · next h =>
      obtain rfl | hlt : k = w ∨ k < w := by omega
      · simpa using h
      · exact ih (by omega) hlt

theorem testBit_leadingZeros {w x : Nat} (h : leadingZeros w x < w) : x.testBit (w - 1 - leadingZeros w x) = true := by
  induction w with
  | zero => omega
  | succ w ih =>
    rw [leadingZeros, bitOf_eq_testBit] at h ⊢
    split
    · simpa
    · next hb =>
      rw [if_neg hb] at h
      have hbit := ih (by omega)
      rwa [show w - 1 - leadingZeros w x = w + 1 - 1 - (1 + leadingZeros w x) by omega] at hbit

theorem trailingZeros_le (w x : Nat) : trailingZeros w x ≤ w := by
  induction w generalizing x with
  | zero => rfl
  | succ w ih =>
    have := ih (x / 2)
    rw [trailingZeros]; split <;> omega

theorem testBit_of_lt_trailingZeros {w x k : Nat} (hk : k < trailingZeros w x) : x.testBit k = false := by
  induction w generalizing x k with
  | zero => exact absurd hk (Nat.not_lt_zero k)
  | succ w ih =>
    rw [trailingZeros] at hk
    split at hk
    · omega
    · next hodd =>
      cases k with
      | zero => simpa [Nat.testBit_zero] using hodd
      | succ k => rw [Nat.testBit_succ]; exact ih (by omega)

theorem testBit_trailingZeros {w x : Nat} (h : trailingZeros w x < w) : x.testBit (trailingZeros w x) = true := by
  induction w generalizing x with
  | zero => omega
  | succ w ih =>
    rw [trailingZeros] at h ⊢
    split
    · next hodd => simpa [Nat.testBit_zero] using hodd
    · next heven =>
      rw [if_neg heven] at h
      rw [Nat.add_comm, Nat.testBit_succ]
      exact ih (by omega)

theorem popCount_eq_countP (w x : Nat) : popCount w x = (List.range w).countP x.testBit := by
  induction w generalizing x with
  | zero => rfl
  | succ w ih =>
    have hshift : x.testBit ∘ Nat.succ = (x / 2).testBit := funext (Nat.testBit_succ x)
    rw [popCount, ih, List.range_succ_eq_map, List.countP_cons, List.countP_map, hshift, Nat.testBit_zero, Nat.add_comm]
    simp only [decide_eq_true_eq]
    split <;> omega

theorem reverseBytes_lt (n x : Nat) : reverseBytes n x < 256 ^ n := by
  induction n generalizing x with
  | zero => exact Nat.one_pos
  | succ n ih =>
    have htop : x % 256 * 256 ^ n ≤ 255 * 256 ^ n := Nat.mul_le_mul_right _ (by omega)
    have := ih (x / 256)
    rw [reverseBytes, Nat.pow_succ]
    omega

/-- Byte `k` of the reversal is byte `n - 1 - k` of the number. -/
theorem reverseBytes_byte {n k : Nat} (x : Nat) (hk : k < n) :
    reverseBytes n x / 256 ^ k % 256 = x / 256 ^ (n - 1 - k) % 256 := by
  induction n generalizing x with
  | zero => omega
  | succ n ih =>
    rw [reverseBytes]
    obtain rfl | hlt : k = n ∨ k < n := by omega
    · rw [Nat.mul_comm, Nat.mul_add_div (by positivity), Nat.div_eq_of_lt (reverseBytes_lt k _)]
      simp
    · obtain ⟨j, rfl⟩ := Nat.exists_eq_add_of_lt hlt
      have hsplit : x % 256 * 256 ^ (k + j + 1) = 256 ^ k * (x % 256 * 256 ^ j * 256) := by ring
      rw [hsplit, Nat.mul_add_div (by positivity), Nat.mul_add_mod_self_right, ih _ hlt, Nat.div_div_eq_div_mul,
        ← Nat.pow_succ']
      congr 3
      omega

end Sys2Proof.Machine

/-! The values of the scalar integer operations as integers (R155, R156). -/
namespace Sys2Proof.Machine

theorem mul_eq_ofInt (x y : W64) : x * y = BitVec.ofInt 64 (x.toInt * y.toInt) := by
  rw [BitVec.ofInt_mul, BitVec.ofInt_toInt, BitVec.ofInt_toInt]

theorem mulHigh_eq (x y : W64) : mulHigh x y = BitVec.ofInt 64 (x.toInt * y.toInt / 2 ^ 64) := rfl

theorem divS_eq (x y : W64) :
    divS x y = if y = 0 then 0xFFFFFFFFFFFFFFFF else BitVec.ofInt 64 (x.toInt.tdiv y.toInt) := by
  rw [divS, BitVec.eq_of_toInt_eq (x := x.sdiv y) (y := BitVec.ofInt 64 _)
    ((BitVec.toInt_sdiv x y).trans (BitVec.toInt_ofInt _).symm)]

theorem divU_eq (x y : W64) :
    divU x y = if y = 0 then 0xFFFFFFFFFFFFFFFF else BitVec.ofNat 64 (x.toNat / y.toNat) := by
  rw [divU, BitVec.udiv_def]

theorem remS_eq (x y : W64) :
    remS x y = if y = 0 then x else BitVec.ofInt 64 (x.toInt - y.toInt * x.toInt.tdiv y.toInt) := by
  rw [remS, ← Int.tmod_def, ← BitVec.toInt_srem, BitVec.ofInt_toInt]

theorem remU_eq (x y : W64) : remU x y = if y = 0 then x else BitVec.ofNat 64 (x.toNat % y.toNat) := by
  rw [remU, BitVec.umod_def]

theorem shiftLeft_eq_ofNat (x : W64) (n : Nat) : x <<< n = BitVec.ofNat 64 (x.toNat * 2 ^ n) :=
  BitVec.eq_of_toNat_eq (by rw [BitVec.toNat_shiftLeft, BitVec.toNat_ofNat, Nat.shiftLeft_eq])

theorem ushiftRight_eq_ofNat (x : W64) (n : Nat) : x >>> n = BitVec.ofNat 64 (x.toNat / 2 ^ n) := by
  rw [← Nat.shiftRight_eq_div_pow, ← BitVec.toNat_ushiftRight, BitVec.ofNat_toNat, BitVec.setWidth_eq]

theorem sshiftRight_eq_ofInt (x : W64) (n : Nat) : x.sshiftRight n = BitVec.ofInt 64 (x.toInt / 2 ^ n) := by
  rw [← BitVec.ofInt_toInt (x := x.sshiftRight n), BitVec.toInt_sshiftRight, Int.shiftRight_eq_div_pow]
  norm_cast

theorem lessS_eq (x y : W64) : lessS x y = if x.toInt < y.toInt then 1 else 0 := by
  simp only [lessS, BitVec.slt_iff_toInt_lt]

theorem lessU_eq (x y : W64) : lessU x y = if x.toNat < y.toNat then 1 else 0 := by
  simp only [lessU, BitVec.lt_def]

/-- Shifting a sign-extended immediate scales its integer. -/
theorem immS_shiftLeft {n : Nat} (imm : BitVec n) (k : Nat) : immS imm <<< k = BitVec.ofInt 64 (imm.toInt * 2 ^ k) := by
  have hpow : BitVec.twoPow 64 k = BitVec.ofInt 64 (2 ^ k) := by
    rw [BitVec.twoPow_eq, shiftLeft_eq_ofNat, ← BitVec.ofInt_natCast]
    simp
  rw [BitVec.shiftLeft_eq_mul_twoPow, BitVec.ofInt_mul, hpow]
  rfl

theorem fs_w_eq_ext_mod (f : FS) : f.w = f.ext.toNat % 4 := by
  rw [FS.w, BitVec.extractLsb'_toNat, Nat.shiftRight_zero]

theorem addrPlus_eq {n : Nat} (a : W64) (imm : BitVec n) (scale : Int) :
    addrPlus a imm scale = a + BitVec.ofInt 64 (scale * imm.toInt) := by
  rw [addrPlus, Int.mul_comm]

theorem lea_eq (f : FS) (x y : W64) : x + y <<< f.w + immS f.imm
    = x + BitVec.ofNat 64 (y.toNat * 2 ^ (f.ext.toNat % 4)) + BitVec.ofInt 64 f.imm.toInt := by
  rw [shiftLeft_eq_ofNat, fs_w_eq_ext_mod]
  rfl

theorem leaImm_eq (f : FS) (x : W64) :
    x + immS f.imm <<< f.w = x + BitVec.ofInt 64 (f.imm.toInt * 2 ^ (f.ext.toNat % 4)) := by
  rw [immS_shiftLeft, fs_w_eq_ext_mod]

theorem clz_spec (x : W64) :
    leadingZeros 64 x.toNat ≤ 64 ∧ (∀ k, 64 - leadingZeros 64 x.toNat ≤ k → x.getLsbD k = false)
      ∧ (leadingZeros 64 x.toNat < 64 → x.getLsbD (63 - leadingZeros 64 x.toNat) = true) := by
  refine ⟨leadingZeros_le 64 _, fun k hk => ?_, fun h => ?_⟩
  · obtain hlt | hge : k < 64 ∨ 64 ≤ k := by omega
    · rw [← BitVec.testBit_toNat]; exact testBit_of_leadingZeros_le hk hlt
    · exact BitVec.getLsbD_of_ge x k hge
  · rw [← BitVec.testBit_toNat]; exact testBit_leadingZeros h

theorem ctz_spec (x : W64) :
    trailingZeros 64 x.toNat ≤ 64 ∧ (∀ k, k < trailingZeros 64 x.toNat → x.getLsbD k = false)
      ∧ (trailingZeros 64 x.toNat < 64 → x.getLsbD (trailingZeros 64 x.toNat) = true) :=
  ⟨trailingZeros_le 64 _, fun _ => testBit_of_lt_trailingZeros, testBit_trailingZeros⟩

theorem popc_eq (x : W64) : BitVec.ofNat 64 (popCount 64 x.toNat)
    = BitVec.ofNat 64 ((List.range 64).countP (fun k => x.getLsbD k)) := by
  rw [popCount_eq_countP]
  rfl

/-- `imm32` over the low half of a register (R156). -/
theorem append_low_eq_ofNat (imm : BitVec 32) (x : W64) :
    imm ++ x.extractLsb' 0 32 = BitVec.ofNat 64 (imm.toNat * 2 ^ 32 + x.toNat % 2 ^ 32) := by
  have hlow : x.toNat % 2 ^ 32 < 2 ^ 32 := Nat.mod_lt _ (by decide)
  have himm : imm.toNat < 2 ^ 32 := imm.isLt
  have hword : imm.toNat * 2 ^ 32 + x.toNat % 2 ^ 32 < 2 ^ 64 := by omega
  apply BitVec.eq_of_toNat_eq
  rw [BitVec.toNat_append, BitVec.extractLsb'_toNat, Nat.shiftRight_zero, ← Nat.shiftLeft_add_eq_or_of_lt hlow,
    Nat.shiftLeft_eq, BitVec.toNat_ofNat, Nat.mod_eq_of_lt hword]

/-- Byte `k` of a byte-swapped register is byte `7 - k` of the register (R156). -/
theorem extractLsb'_reverseBytes (x : W64) {k : Nat} (hk : k < 8) :
    (BitVec.ofNat 64 (reverseBytes 8 x.toNat)).extractLsb' (8 * k) 8 = x.extractLsb' (8 * (7 - k)) 8 := by
  have hlt : reverseBytes 8 x.toNat < 2 ^ 64 := reverseBytes_lt 8 _
  have hbytes (j : Nat) : 2 ^ (8 * j) = 256 ^ j := Nat.pow_mul 2 8 j
  apply BitVec.eq_of_toNat_eq
  rw [BitVec.extractLsb'_toNat, BitVec.extractLsb'_toNat, BitVec.toNat_ofNat, Nat.mod_eq_of_lt hlt,
    Nat.shiftRight_eq_div_pow, Nat.shiftRight_eq_div_pow, hbytes, hbytes]
  exact reverseBytes_byte x.toNat hk

end Sys2Proof.Machine

/-! The shapes of the scalar words: three registers, two registers and an immediate, two registers, none read. -/
namespace Sys2Proof.Machine

open Safety

theorem computes_congr {i : Instr} {reads : List (BitVec 6)} {sd : BitVec 6} {v v' : Grp → W64} (h : Computes i reads sd v)
    (hv : ∀ g, v g = v' g) : Computes i reads sd v' := by
  obtain rfl : v = v' := funext hv
  exact h

theorem computes_alu {i : Instr} {f : FS} {op value : W64 → W64 → W64} (he : ∀ s, exec i s = alu i.check f op s)
    (hv : ∀ x y, op x y = value x y) :
    Computes i [f.sa, f.sb] f.sd (fun g => value (g.reg f.sa.toNat) (g.reg f.sb.toNat)) := by
  obtain rfl : op = value := funext fun x => funext (hv x)
  exact computes_of_scalarResult he rfl rfl rfl rfl rfl rfl rfl

theorem computes_aluImm {i : Instr} {f : FS} {op value : W64 → W64 → W64}
    (he : ∀ s, exec i s = aluImm i.check f op s) (hv : ∀ x y, op x y = value x y) :
    Computes i [f.sa] f.sd (fun g => value (g.reg f.sa.toNat) (BitVec.ofInt 64 f.imm.toInt)) := by
  obtain rfl : op = value := funext fun x => funext (hv x)
  exact computes_of_scalarResult he rfl rfl rfl rfl rfl rfl rfl

theorem computes_aluOne {i : Instr} {f : FS} (op : W64 → W64) (he : ∀ s, exec i s = aluOne i.check f op s) :
    Computes i [f.sa] f.sd (fun g => op (g.reg f.sa.toNat)) :=
  computes_of_scalarResult he rfl rfl rfl rfl rfl rfl rfl

/-- Reason 4 comes before the reason of a nonzero CF. -/
theorem leastReason_four_cf (cf : BitVec 2) : leastReason (4 :: failIf (cf ≠ 0) 6) = some 4 := by
  by_cases h : cf = 0
  · rw [h]; rfl
  · rw [decide_eq_true h]; rfl

/-- The decode checks of an immediate shift with a bad count and no stray field give reason 4, the least of its reasons (R67). -/
theorem wordTrap_of_badShift {f : FS} {g : Grp} (hb : f.sb = 0) (he : f.ext = 0) :
    g.wordTrap (f.check true true false true 0 true) .user false = some (illegal 4) := by
  have hlevel : ¬ g.level.num < Level.user.num := Nat.not_lt_zero _
  have hreasons : (f.check true true false true 0 true).reasons = 4 :: failIf (f.cf ≠ 0) 6 := by
    simp [FS.check, failIf, stray, within, hb, he]
  obtain ⟨hregs, hclass⟩ : failIf ((f.check true true false true 0 true).vregs.any (fun v => g.nreg ≤ v)
        || (f.check true true false true 0 true).accs.any (fun a => g.nacc ≤ a)) 5
      = [] ∧ failIf (false && decide (g.cls ≠ 0)) 9 = [] := ⟨rfl, rfl⟩
  rw [Grp.wordTrap, if_neg hlevel, hreasons, hregs, hclass, List.append_nil, List.append_nil, leastReason_four_cf]
  rfl

/-- A shift by an immediate outside 0-63 traps (R155). -/
theorem trapsAt_of_badShift {i : Instr} {f : FS} (op : W64 → W64 → W64) {s : State} {g : Grp}
    (he : exec i s = aluImm i.check f op s) (hc : i.check = f.check true true false true 0 f.badShift)
    (ht : AtTurn s g) (hb : f.sb = 0) (hx : f.ext = 0) (hi : 64 ≤ f.imm.toNat) : TrapsAt i s g (illegal 4) := by
  have hbad : f.badShift = true := decide_eq_true hi
  have htrap : g.wordTrap i.check .user false = some (illegal 4) := by
    rw [hc, hbad]
    exact wordTrap_of_badShift hb hx
  rw [TrapsAt, he, aluImm, scalarResult, issueControl_trap ht htrap, controlTrap]

/-- A word whose body leaves the state as it is moves its group to the next word. -/
theorem advances_of_issueControl {i : Instr} {n : Needs} {reads : List (BitVec 6)} {s : State} {g : Grp}
    (he : exec i s = .next (issueControl n (fun s _ _ => .done s) s)) (hc : n.check = i.check) (hl : n.level = .user)
    (hcc : n.concurrent = false) (hr : n.reads ++ n.writes = reads) (hd : n.drained = false) (hm : n.memory = false)
    (h : Issues s g i reads) :
    exec i s = .next (s.setGrp s.sched.cur g.advance) ∧ NextWord g g.advance := by
  obtain ⟨ht, hp, hf, hroom⟩ := h
  refine ⟨?_, g.advance_next⟩
  rw [he, issueControl_run ht (by rw [hc, hl, hcc]; exact hp) (Needs.waits_plain (by rw [hr]; exact hf) hd hm),
    Issue.finish_done ht.1 hroom]

end Sys2Proof.Machine

section
open Sys2Proof Sys2Proof.Machine Sys2Proof.Safety

/-- Settles O9: a body that leaves the state as it is, then the next word. -/
theorem wordsWithoutEffect : Obligations.WordsWithoutEffect := by
  refine ⟨rfl, ?_, ?_⟩
  · intro f s g h
    exact advances_of_issueControl (n := { check := f.check }) rfl rfl rfl rfl rfl rfl rfl h
  · intro f s g h
    exact advances_of_issueControl (n := { check := (Instr.prefetch f).check, reads := [f.sa] }) rfl rfl rfl rfl rfl rfl rfl h

/-- Settles O5: each word has one of the shapes above, and its operation the value that the rule gives. -/
theorem scalarIntegerWords : Obligations.ScalarIntegerWords := by
  refine ⟨fun f => ⟨?_, ?_, ?_, ?_, ?_, ?_, ?_, ?_, ?_, ?_, ?_, ?_, ?_, ?_, ?_, ?_⟩,
    fun f => ⟨?_, ?_, ?_, ?_, ?_, ?_, ?_, ?_⟩, ⟨fun f => ⟨?_, ?_, ?_⟩, fun f => ⟨?_, ?_, ?_, ?_, ?_, ?_⟩⟩, ?_⟩
  -- R155, three registers: add to sltu
  · exact computes_alu (fun _ => rfl) fun _ _ => rfl
  · exact computes_alu (fun _ => rfl) fun _ _ => rfl
  · exact computes_alu (fun _ => rfl) mul_eq_ofInt
  · exact computes_alu (fun _ => rfl) mulHigh_eq
  · exact computes_alu (fun _ => rfl) divS_eq
  · exact computes_alu (fun _ => rfl) divU_eq
  · exact computes_alu (fun _ => rfl) remS_eq
  · exact computes_alu (fun _ => rfl) remU_eq
  · exact computes_alu (fun _ => rfl) fun _ _ => rfl
  · exact computes_alu (fun _ => rfl) fun _ _ => rfl
  · exact computes_alu (fun _ => rfl) fun _ _ => rfl
  · exact computes_alu (fun _ => rfl) fun x y => shiftLeft_eq_ofNat x (shiftCount y)
  · exact computes_alu (fun _ => rfl) fun x y => ushiftRight_eq_ofNat x (shiftCount y)
  · exact computes_alu (fun _ => rfl) fun x y => sshiftRight_eq_ofInt x (shiftCount y)
  · exact computes_alu (fun _ => rfl) lessS_eq
  · exact computes_alu (fun _ => rfl) lessU_eq
  -- R155, an immediate: add to slt
  · exact computes_aluImm (fun _ => rfl) fun _ _ => rfl
  · exact computes_aluImm (fun _ => rfl) fun _ _ => rfl
  · exact computes_aluImm (fun _ => rfl) fun _ _ => rfl
  · exact computes_aluImm (fun _ => rfl) fun _ _ => rfl
  · exact computes_aluImm (fun _ => rfl) fun x y => shiftLeft_eq_ofNat x (shiftCount y)
  · exact computes_aluImm (fun _ => rfl) fun x y => ushiftRight_eq_ofNat x (shiftCount y)
  · exact computes_aluImm (fun _ => rfl) fun x y => sshiftRight_eq_ofInt x (shiftCount y)
  · exact computes_aluImm (fun _ => rfl) lessS_eq
  -- R156: li, lhi, pcaddr
  · exact computes_of_scalarResult (fun _ => rfl) rfl rfl rfl rfl rfl rfl rfl
  · exact computes_congr (computes_of_scalarResult (fun _ => rfl) rfl rfl rfl rfl rfl rfl rfl) fun g =>
      append_low_eq_ofNat f.imm (g.reg f.sa.toNat)
  · exact computes_congr (computes_of_scalarResult (fun _ => rfl) rfl rfl rfl rfl rfl rfl rfl) fun g =>
      addrPlus_eq g.hdr f.imm 8
  -- R156: lea with a register and with an immediate, clz, ctz, popc, bswap
  · exact computes_alu (fun _ => rfl) (lea_eq f)
  · exact computes_congr (computes_aluImm (op := fun x y => x + y <<< f.w) (fun _ => rfl) fun _ _ => rfl) fun g =>
      leaImm_eq f (g.reg f.sa.toNat)
  · exact ⟨_, computes_aluOne (fun x => BitVec.ofNat 64 (leadingZeros 64 x.toNat)) fun _ => rfl, clz_spec⟩
  · exact ⟨_, computes_aluOne (fun x => BitVec.ofNat 64 (trailingZeros 64 x.toNat)) fun _ => rfl, ctz_spec⟩
  · exact computes_congr (computes_aluOne (fun x => BitVec.ofNat 64 (popCount 64 x.toNat)) fun _ => rfl) fun g =>
      popc_eq (g.reg f.sa.toNat)
  · exact ⟨_, computes_aluOne (fun x => BitVec.ofNat 64 (reverseBytes 8 x.toNat)) fun _ => rfl,
      fun x _ => extractLsb'_reverseBytes x⟩
  -- R155: immediate shifts that trap
  · intro f s g ht hb he hi i hmem
    obtain rfl | rfl | rfl : i = .sllImm f ∨ i = .srlImm f ∨ i = .sraImm f := by simpa using hmem
    · exact trapsAt_of_badShift (f := f) (fun x y => x <<< shiftCount y) rfl rfl ht hb he hi
    · exact trapsAt_of_badShift (f := f) (fun x y => x >>> shiftCount y) rfl rfl ht hb he hi
    · exact trapsAt_of_badShift (f := f) (fun x y => x.sshiftRight (shiftCount y)) rfl rfl ht hb he hi

end

/-! The element count that a form's check gives (R229, R230). -/

/-! Translations, and the requests that they or reads at a lender send, leave every group as it is. -/
namespace Sys2Proof.Machine

@[simp] theorem State.forget_groups (s : State) (w : Agent) : (s.forget w).groups = s.groups := rfl

@[simp] theorem State.transmit_groups (s : State) (what : Sent) (group : Option Nat) :
    (s.transmit what group).groups = s.groups := by
  unfold State.transmit
  split <;> rfl

@[simp] theorem State.release_groups (s : State) : s.release.groups = s.groups :=
  List.foldlRecOn (motive := fun t : State => t.groups = s.groups) _ _ rfl
    fun t ht r _ => (t.transmit_groups r.what r.group).trans ht

@[simp] theorem State.request_groups (s : State) (r : Request) : (s.request r).groups = s.groups := State.release_groups _

@[simp] theorem State.oldOrNew_groups (s : State) (past : List (Nat × Nat × W64)) (launch pa : Nat) :
    (s.oldOrNew past launch pa).2.groups = s.groups := by
  simp only [State.oldOrNew]
  split <;> rfl

@[simp] theorem findLeaf_groups (s : State) (part : Nat) (va : W64) : (findLeaf s part va).2.groups = s.groups := by
  simp only [findLeaf]
  split
  · rfl
  · split <;> rfl

@[simp] theorem translate_groups (s : State) (part : Nat) (va : W64) (kind : AccessKind) :
    (translate s part va kind).2.groups = s.groups := by
  have hfind := findLeaf_groups s part va
  rw [translate]
  generalize findLeaf s part va = found at hfind
  obtain ⟨leaf | fault | _, s'⟩ := found
  case leaf => dsimp only; split <;> exact hfind
  case fault => exact hfind
  case host =>
    dsimp only
    split
    · split <;> exact hfind
    · exact hfind

end Sys2Proof.Machine

/-! The state in which a read of memory, of several dwords, or of a block ends: it holds the same groups. -/
namespace Sys2Proof.Machine

/-- The state in which an access ends. -/
def Reached.state : Reached → State
  | .ok s _ | .trap s _ | .failed s | .wait s => s

/-- The state in which a read of several dwords ends. -/
def ReadMany.state : ReadMany → State
  | .ok s _ | .trap s _ | .failed s | .wait s => s

/-- The state in which the reading of a block ends. -/
def BlockRead.state : BlockRead → State
  | .ok s _ | .trap s _ | .wait s => s

theorem readAt_groups (s : State) (w : Agent) (va : W64) (n : Nat) (t : Target) :
    (readAt s w va n t).state.groups = s.groups := by
  rw [readAt, reachAt]
  split
  · rfl
  · split
    · rfl
    · rfl
    · split
      · rfl
      · exact State.request_groups s _
  · rfl

theorem reach_groups {s : State} {w : Agent} {va : W64} {kind : AccessKind} {go : State → Target → Reached}
    (hgo : ∀ s t, (go s t).state.groups = s.groups) : (reach s w va kind go).state.groups = s.groups := by
  have hxl := translate_groups s w.part va kind
  rw [reach]
  generalize translate s w.part va kind = x at hxl
  obtain ⟨ok | _ | _ | _, s'⟩ := x
  case ok => exact (hgo _ _).trans hxl
  all_goals exact hxl

theorem groups_of_readEach {read : State → W64 → Reached} (hread : ∀ s va, (read s va).state.groups = s.groups)
    {s : State} {va : W64} {n : Nat} {r : ReadMany} (h : readEach read s va n = r) : r.state.groups = s.groups := by
  induction n generalizing s va r with
  | zero => subst h; rfl
  | succ n ih =>
    have hfirst := hread s va
    rw [readEach] at h
    generalize read s va = first at h hfirst
    cases first with
    | ok s' v =>
      dsimp only at h
      split at h
      · next hrest => subst h; exact (ih hrest).trans hfirst
      · exact (ih h).trans hfirst
    | trap s' i => subst h; exact hfirst
    | failed s' => subst h; exact hfirst
    | wait s' => subst h; exact hfirst

theorem tableDword_groups (s : State) (w : Agent) (core : Nat) (va : W64) :
    (tableDword s w core va).state.groups = s.groups := by
  refine reach_groups fun s t => ?_
  split
  · exact s.oldOrNew_groups _ _ _
  · have hread := readAt_groups s w va 8 t
    generalize readAt s w va 8 t = r at hread
    cases r <;> exact hread

theorem groups_of_readTable {s : State} {w : Agent} {core : Nat} {va : W64} {n : Nat} {r : ReadMany}
    (h : readEach (fun s va => tableDword s w core va) s va n = r) : r.state.groups = s.groups :=
  groups_of_readEach (fun s va => tableDword_groups s w core va) h

theorem readWords_groups (s : State) (w : Agent) (core : Nat) (at_ : W64) (lbid h : Nat) :
    (readWords s w core at_ lbid h).state.groups = s.groups := by
  simp only [readWords]
  split
  · next hr => exact groups_of_readTable hr
  · next hr => exact groups_of_readTable hr
  · next hr => exact groups_of_readTable hr
  · next hwords =>
    have hs := groups_of_readTable hwords
    split
    · split
      · next hr => exact (groups_of_readTable hr).trans hs
      · next hr => split <;> exact (groups_of_readTable hr).trans hs
      · next hr => exact (groups_of_readTable hr).trans hs
      · next hr => exact (groups_of_readTable hr).trans hs
    · split <;> exact hs

theorem groups_of_readWords {s : State} {w : Agent} {core lbid h : Nat} {at_ : W64} {r : BlockRead}
    (hr : readWords s w core at_ lbid h = r) : r.state.groups = s.groups :=
  hr ▸ readWords_groups s w core at_ lbid h

theorem fetchBlock_groups (s : State) (tag : Nat) (g : Grp) (e : VEntry) (lbid : Nat) :
    (fetchBlock s tag g e lbid).state.groups = s.groups := by
  simp only [fetchBlock]
  split
  · rfl
  · -- the launch's table, or none where the launch is gone
    split
    all_goals
      split
      · rfl
      · split
        · next hr => exact groups_of_readTable hr
        · next hr => exact groups_of_readTable hr
        · next hr => exact groups_of_readTable hr
        · next hheader =>
          have hs := groups_of_readTable hheader
          split
          · exact hs
          · split
            · next hr => exact (groups_of_readWords hr).trans hs
            · exact (groups_of_readWords rfl).trans hs

theorem groups_of_fetchBlock {s : State} {tag : Nat} {g : Grp} {e : VEntry} {lbid : Nat} {r : BlockRead}
    (h : fetchBlock s tag g e lbid = r) : r.state.groups = s.groups :=
  h ▸ fetchBlock_groups s tag g e lbid

end Sys2Proof.Machine

/-! What a form's check can leave in the group: no form, or one with the element count of R229. -/
namespace Sys2Proof.Machine

/-- A form under way in group `tag` has `n` elements. -/
def State.FormCount (s : State) (tag n : Nat) : Prop :=
  ∀ g run, s.grp tag = some g → g.form = some run → run.n = n

theorem formCount_of_grp {s : State} {tag n : Nat} {g : Grp} (h : s.grp tag = some g)
    (hn : ∀ run, g.form = some run → run.n = n) : s.FormCount tag n := by
  intro g' run hg' hrun
  obtain rfl : g = g' := Option.some.inj (h.symm.trans hg')
  exact hn run hrun

theorem formCount_of_groups_eq {s t : State} {tag n : Nat} (hgroups : t.groups = s.groups) (h : s.FormCount tag n) :
    t.FormCount tag n := by
  intro g run hg
  rw [State.grp, hgroups] at hg
  exact h g run hg

theorem formCount_of_form_none {s : State} {tag : Nat} {g : Grp} (n : Nat) (h : s.grp tag = some g) (hform : g.form = none) :
    s.FormCount tag n :=
  formCount_of_grp h fun run hrun => absurd (hform.symm.trans hrun) (Option.some_ne_none run).symm

theorem Grp.trapHead_form (g : Grp) (i : TrapInfo) : (g.trapHead i).form = g.form := by
  unfold Grp.trapHead
  split <;> rfl

theorem ifMoved_eq_some {s s' t : State} (h : ifMoved s s' = some t) : t = s' := by
  unfold ifMoved at h
  split at h
  · exact (Option.some.inj h).symm
  · cases h

theorem checkForm_n {s : State} {g : Grp} {e : VEntry} {k : FormKind} {f : FF} {b : Block}
    {inner : Option (FormKind × FF × List W64 × Block)} {run : FormRun} (h : checkForm s g e k f b inner = .ok run) :
    run.n = elementCount k e.ops := by
  simp only [checkForm] at h
  split_ifs at h
  generalize checkFeed s g e _ _ = feed at h
  cases feed with
  | ok feed => cases h; rfl
  | trap => cases h
  | wait => cases h

theorem formCount_trapHead {g : Grp} (s : State) (tag n : Nat) (i : TrapInfo) (hform : g.form = none) :
    (s.setGrp tag (g.trapHead i)).FormCount tag n :=
  formCount_of_form_none n (s.grp_setGrp tag _) ((g.trapHead_form i).trans hform)

/-- Each way that a check ends (R230): the form begins, a trap is found, or a read waits. -/
theorem formCount_of_tryFormCheck {s t : State} {tag : Nat} {g : Grp} {e : VEntry} {k : FormKind} {f : FF}
    (hg : s.grp tag = some g) (hhead : g.headForm = some (e, k, f)) (hform : g.form = none)
    (h : tryFormCheck s tag = some t) : t.FormCount tag (elementCount k e.ops) := by
  have hs := formCount_of_form_none (elementCount k e.ops) hg hform
  simp -zeta only [tryFormCheck, hg, hhead, Option.bind_eq_bind, Option.bind_some] at h
  split at h
  · cases h
  · extract_lets settle at h
    have hsettle {s' t : State} {b : Block} {inner : Option (FormKind × FF × List W64 × Block)}
        (ht : settle s' (checkForm s' g e k f b inner) = some t) : t.FormCount tag (elementCount k e.ops) := by
      dsimp only [settle] at ht
      split at ht
      · next hrun =>
        cases ht
        refine formCount_of_groups_eq (State.forget_groups _ _) (formCount_of_grp (s'.grp_setGrp tag _) fun run h => ?_)
        cases h
        exact checkForm_n hrun
      · cases ht
        exact formCount_trapHead s' tag _ _ hform
      · cases ht
    clear_value settle
    split at h
    · cases h
      exact formCount_trapHead _ tag _ _ hform
    · next hwait =>
      rw [ifMoved_eq_some h]
      exact formCount_of_groups_eq (groups_of_fetchBlock hwait) hs
    · next houter =>
      split at h
      · exact hsettle h
      · split at h
        · cases h
          exact formCount_trapHead _ tag _ _ hform
        · next hwait =>
          rw [ifMoved_eq_some h]
          exact formCount_of_groups_eq ((groups_of_fetchBlock hwait).trans (groups_of_fetchBlock houter)) hs
        · exact hsettle h

/-- COUNT is the low half of a specification's second word (R227). -/
theorem specOf_count (ops : List W64) (j : Nat) : (specOf ops j).count = (ops.getD (3 * j + 1) 0).toNat % 2 ^ 32 := by
  rw [Spec.count, bitsOf, Nat.pow_zero, Nat.div_one, specOf]

theorem Grp.headForm_eq {g : Grp} {e : VEntry} {rest : List VEntry} {k : FormKind} {f : FF} (hq : g.vq = e :: rest)
    (hf : formOf e.instr = some (k, f)) : g.headForm = some (e, k, f) := by
  simp [Grp.headForm, hq, hf]

end Sys2Proof.Machine

section
open Sys2Proof Sys2Proof.Machine

/-- Settles O56: a form under way after the check was begun by it, for it began with none and its reads change no group; and
the check begins a form with the COUNT of its stream. -/
theorem formElementCount : Obligations.FormElementCount := by
  intro s tag g e k f rest t g' run hg hq hf hform hexec hg' hrun
  have hstep : (tryFormCheck s tag).getD s = t := Host.Outcome.next.inj hexec
  have hcount : t.FormCount tag (elementCount k e.ops) := by
    cases htry : tryFormCheck s tag with
    | none =>
      rw [htry, Option.getD_none] at hstep
      exact hstep ▸ formCount_of_form_none _ hg hform
    | some t' =>
      rw [htry, Option.getD_some] at hstep
      exact hstep ▸ formCount_of_tryFormCheck hg (Grp.headForm_eq hq hf) hform htry
  rw [hcount g' run hg' hrun]
  cases k with
  | reduce | scan exclusive => exact specOf_count e.ops 0
  | map | zip | stencil | gapply => exact specOf_count e.ops 3

end
